-- ==== Sys2Proof/Word.lean ====
section
/-! DEFINITION. The word types of the block: bytes, 16-bit CPU addresses, 20-bit offsets and cursors (R7, R22, R37, R60). -/

namespace Sys2Proof

/-- One byte (R69: every transfer of the block is one byte). -/
abbrev Byte := BitVec 8

/-- A 16-bit address: a CPU address, or an address of the I/O window (R60). -/
abbrev CpuAddr := BitVec 16

/-- A 20-bit quantity: a map offset (R22), a cursor (R37), an address inside one 1MB slice (R105). -/
abbrev Addr20 := BitVec 20

/-- One of the sixteen 4KB regions of the CPU address space (R7). -/
abbrev Region := Fin 16

end Sys2Proof
end

