-- ==== Sys2Proof/Syntax.lean ====
section
/-! DEFINITION. The syntax of the block: the encoded objects of R100 as data, and `Instr`, one constructor per row of
spec/opcode_table.json. -/

namespace Sys2Proof

/-- The two sides of a transfer (R8, R65). -/
inductive SideName where
  | src
  | tgt
deriving DecidableEq, Repr, Inhabited

/-- The bits of a command byte other than the operation code (format CMD, R103). -/
structure CmdBits where
  /-- Bit 2: another descriptor follows in the list. -/
  chain : Bool
  /-- Bit 3: reserved, ignored (R115(a)). -/
  rsv3 : Bool
  /-- Bit 4: selects `minterms[0]`. -/
  mt0 : Bool
  /-- Bit 5: selects `minterms[1]`. -/
  mt1 : Bool
  /-- Bit 6: selects `minterms[2]`. -/
  mt2 : Bool
  /-- Bit 7: selects `minterms[3]`. -/
  mt3 : Bool
deriving DecidableEq, Repr, Inhabited

/-- The 24-bit source or target field (format ADDR3, R105). -/
structure Addr3 where
  /-- Bits 19:0: address inside the 1MB slice. -/
  addr : Addr20
  /-- Bit 20, HOLD: the cursor does not move. -/
  hold : Bool
  /-- Bit 21, MOD: ignored (R109). -/
  modEn : Bool
  /-- Bit 22, DIR: the cursor moves down. -/
  dir : Bool
  /-- Bit 23, IO: the side addresses the I/O space. -/
  io : Bool
deriving DecidableEq, Repr, Inhabited

/-- The 11-byte descriptor (format DESC11, R101). -/
structure Desc11 where
  command : Byte
  length : BitVec 16
  source : Addr3
  target : Addr3
  modulo : BitVec 16
deriving DecidableEq, Repr, Inhabited

/-- A cursor step in -1, 0, +1 (R35, R106). -/
inductive Step where
  | down
  | hold
  | up
deriving DecidableEq, Repr, Inhabited

/-- One side of the current descriptor, as the fetch latches it (R35, R187). -/
structure SideLatch where
  addr : Addr20
  io : Bool
  step : Step
  /-- The megabyte selector, `MB_BITS` bits; 0 in BASE. -/
  mb : Nat
deriving DecidableEq, Repr, Inhabited

/-- `current_descriptor` (R35). The fields `op`, `chained` and `minterms` of R35 are functions of `command`
(R103, R104, R108) and are read through `decodeOp` and `cmdBitsOf` (assumption 18). -/
structure Descriptor where
  command : Byte
  length : BitVec 16
  src : SideLatch
  tgt : SideLatch
  modulo : BitVec 16
  /-- EXTENDED only (R102). -/
  subcmd : Byte
deriving DecidableEq, Repr, Inhabited

/-- The verdict of the operation decoder (R104). -/
inductive Op where
  | copy
  | mix
  | swap
  | fill
  | unknown (v : BitVec 2)
deriving DecidableEq, Repr, Inhabited

/-- The formats of R100 that carry bits, and PORT, which carries none. -/
inductive Format where
  | cmd
  | desc11
  | addr3 (side : SideName)
  | regWrite
  | regRead
  | port
deriving DecidableEq, Repr, Inhabited

/-- The instructions: one constructor per row of spec/opcode_table.json (the map is in LAWS.json). -/
inductive Instr where
  -- format CMD: the latched command byte; one Execute step of the engine
  | copy (c : CmdBits)
  | mix (c : CmdBits)
  | swap (c : CmdBits)
  | fill (c : CmdBits)
  | unknown (opc : BitVec 2) (c : CmdBits)
  -- format DESC and its operand sub-format
  | desc11 (d : Desc11)
  | addr3 (side : SideName) (a : Addr3)
  -- format REG
  | dmaRegWriteListLo (v : Byte)
  | dmaRegReadListLo
  | dmaRegWriteListHi (v : Byte)
  | dmaRegReadListHi
  | dmaRegWriteListBank (v : Byte)
  | dmaRegReadListBank
  | dmaRegWriteStatus (v : Byte)
  | dmaRegReadStatus
  -- format PORT (operands of R113; the offsets and megabyte selectors as numbers, reduced on write, R22)
  | setMap (mask : Byte) (offLo offHi mbLo mbHi : Nat)
  | writePortDdr (v : Byte)
  | writePortData (v : Byte)
  | writeOverlay (v : Byte)
  | cpuRead (addr : CpuAddr)
  | cpuWrite (addr : CpuAddr) (v : Byte)
  | cpuFetch (addr : CpuAddr)
  | dmaStep
  | reset
deriving DecidableEq, Repr, Inhabited

end Sys2Proof
end

