-- ==== Sys2Proof/Config.lean ====
section
/-! DEFINITION. The implementation parameters of R5 as one record (`Params`), its legal values, profile P0 (R6), and the
free values: opaque constants with no body, for what the spec leaves unspecified. -/

namespace Sys2Proof

/-- The machine variant (R4). `MB_BITS` is 0 in BASE and OPEN in EXTENDED (R5). -/
inductive Variant where
  | base
  | extended (mbBits : Nat)
deriving DecidableEq, Repr, Inhabited

/-- The kinds of a region of PhysicalStore (R30). -/
inductive RegionKind where
  | ram
  | rom
  | color
  | expansion
deriving DecidableEq, Repr, Inhabited

/-- One region of `PHYS_MAP` (R5, R30). -/
structure PhysRegion where
  base : Nat
  size : Nat
  kind : RegionKind
  writable : Bool
deriving DecidableEq, Repr, Inhabited

/-- What window $A000 shows (R147). -/
inductive PortA where
  | ram
  | basic
deriving DecidableEq, Repr, Inhabited

/-- What window $D000 shows (R148). -/
inductive PortD where
  | ram
  | chargen
  | io
deriving DecidableEq, Repr, Inhabited

/-- What window $E000 shows (R149). -/
inductive PortE where
  | ram
  | kernal
deriving DecidableEq, Repr, Inhabited

/-- One row of the CPU-port truth table (R150). -/
structure PortRow where
  a : PortA
  d : PortD
  e : PortE
deriving DecidableEq, Repr, Inhabited

/-- `OVERLAY_WRITE_POLICY` (R5, R143). -/
inductive OverlayWrite where
  | discard
  | ramUnder
deriving DecidableEq, Repr, Inhabited

/-- `IMPLEMENTED_OPS`: which of the four operations the variant recognises (R5, R104). -/
structure OpSet where
  copy : Bool
  mix : Bool
  swap : Bool
  fill : Bool
deriving DecidableEq, Repr, Inhabited

/-- `DMA_POLICY` (R5, R190). -/
inductive Policy where
  | drain
  | interleaved (k : Nat)
deriving DecidableEq, Repr, Inhabited

/-- A BankConfig write port that a platform may bind to an I/O or a memory address (`CPU_PORT_BINDING`,
`OVERLAY_REG_BINDING`, R5). -/
inductive BankPort where
  | ddr
  | data
  | overlay
deriving DecidableEq, Repr, Inhabited

/-- The configuration record of R5: fixed for the machine, never written by an operation. -/
structure Params where
  variant : Variant
  physMap : List PhysRegion
  romBasicPa : Addr20
  romChargenPa : Addr20
  romKernalPa : Addr20
  ov8Pa : Addr20
  ovAPa : Addr20
  ovCPa : Addr20
  ovEPa : Addr20
  ov8Mask : Byte
  ovAMask : Byte
  ovCMask : Byte
  ovEMask : Byte
  portPolicy : Vector PortRow 8
  overlayWrite : OverlayWrite
  ioFallback : Byte
  dmaRegBase : CpuAddr
  implementedOps : OpSet
  dmaMaxIterations : Nat
  dmaPolicy : Policy
  /-- I/O addresses at which an IoWrite reaches a BankConfig port (R63(d); assumption 10). -/
  ioBindings : List (CpuAddr × BankPort)
  /-- Physical addresses at which a memory write reaches a BankConfig port (R5, D12, U19; assumption 10). -/
  memBindings : List (Nat × BankPort)
  /-- I/O addresses (first, last) of unimplemented registers (R63(b); assumption 9). -/
  ioUnimplemented : List (CpuAddr × CpuAddr)
deriving DecidableEq, Repr

/-- `MB_BITS` (R5). -/
def Params.mbBits (p : Params) : Nat :=
  match p.variant with
  | .base => 0
  | .extended n => n

/-- `PA_BITS = 20 + MB_BITS` (R5). -/
def Params.paBits (p : Params) : Nat := 20 + p.mbBits

/-- The number of bytes of PhysicalStore, `2^PA_BITS` (R29). -/
def Params.physSize (p : Params) : Nat := 2 ^ p.paBits

/-- `DESC_LEN`: 11 in BASE, 12 in EXTENDED (R5, R116). -/
def Params.descLen (p : Params) : Nat :=
  match p.variant with
  | .base => 11
  | .extended _ => 12

/-- Is the operation with code `v` implemented? Codes 0 to 3 are Copy, Mix, Swap, Fill (R104). -/
def OpSet.has (o : OpSet) (v : BitVec 2) : Bool :=
  match v.toNat with
  | 0 => o.copy
  | 1 => o.mix
  | 2 => o.swap
  | _ => o.fill

/-- `IMPLEMENTED_OPS` of BASE: all four (R5). -/
def OpSet.all : OpSet := ⟨true, true, true, true⟩

/-- Does the region hold the address? -/
def PhysRegion.contains (r : PhysRegion) (a : Nat) : Bool := r.base ≤ a && a < r.base + r.size

/-- The regions, in rising order, tile `[from, to)` without gap or overlap (R30). -/
def PhysRegion.tile : List PhysRegion → Nat → Nat → Bool
  | [], start, stop => start == stop
  | r :: rs, start, stop => r.base == start && 0 < r.size && tile rs (start + r.size) stop

/-- A mask of exactly one bit (R5). -/
def oneBit (m : Byte) : Bool := m != 0 && (m &&& (m - 1)) == 0

/-- The legal values of R5: PHYS_MAP covers the space and exactly its ROM regions are not writable (R30), the overlay
masks are four distinct one-bit masks, the ceiling lies in 100000 to 999999, INTERLEAVED has k at least 1, the DMA
registers lie in the I/O window and so do the I/O bindings, and the memory bindings lie in PhysicalStore. -/
def Params.legal (p : Params) : Bool :=
  PhysRegion.tile p.physMap 0 p.physSize
  && p.physMap.all (fun r => r.writable == (r.kind != .rom))
  && oneBit p.ov8Mask && oneBit p.ovAMask && oneBit p.ovCMask && oneBit p.ovEMask
  && decide ([p.ov8Mask, p.ovAMask, p.ovCMask, p.ovEMask].Nodup)
  && 100000 ≤ p.dmaMaxIterations && p.dmaMaxIterations < 1000000
  && (match p.dmaPolicy with | .drain => true | .interleaved k => 1 ≤ k)
  && 0xD000 ≤ p.dmaRegBase.toNat && p.dmaRegBase.toNat ≤ 0xDFFC
  && p.ioBindings.all (fun b => 0xD000 ≤ b.1.toNat && b.1.toNat ≤ 0xDFFF)
  && p.memBindings.all (fun b => b.1 < p.physSize)

/-- The document's truth table, the BASE value of `PORT_POLICY` (R150). -/
def basePortPolicy : Vector PortRow 8 :=
  #v[⟨.ram, .ram, .ram⟩, ⟨.ram, .chargen, .ram⟩, ⟨.ram, .ram, .kernal⟩, ⟨.basic, .chargen, .kernal⟩,
     ⟨.ram, .ram, .ram⟩, ⟨.ram, .io, .ram⟩, ⟨.ram, .io, .kernal⟩, ⟨.basic, .io, .kernal⟩]

/-- Profile P0 (R6) with the BASE values of R5. PRESUMED: every number of R6 is general knowledge (assumption 1).
DESIGN CHOICE: the ceiling 100000 (assumption 2), no binding (assumption 10), no unimplemented address (assumption 9). -/
def profileP0 : Params where
  variant := .base
  physMap := [⟨0x00000, 0x20000, .ram, true⟩, ⟨0x20000, 0x20000, .rom, false⟩, ⟨0x40000, 0xC0000, .expansion, true⟩]
  romBasicPa := 0x2A000
  romChargenPa := 0x2D000
  romKernalPa := 0x2E000
  ov8Pa := 0x38000
  ovAPa := 0x3A000
  ovCPa := 0x2C000
  ovEPa := 0x3E000
  ov8Mask := 0x08
  ovAMask := 0x10
  ovCMask := 0x20
  ovEMask := 0x80
  portPolicy := basePortPolicy
  overlayWrite := .discard
  ioFallback := 0xFF
  dmaRegBase := 0xD700
  implementedOps := OpSet.all
  dmaMaxIterations := 100000
  dmaPolicy := .drain
  ioBindings := []
  memBindings := []
  ioUnimplemented := []

/-- The two states of the engine (R33). -/
inductive Phase where
  | fetch
  | execute
deriving DecidableEq, Repr, Inhabited

/-! Free values: no body, so nothing in Lean can evaluate or prove one. -/

/-- ROM_CONTENT: the byte of the platform's ROM images at a physical address (R29, U2; assumption 5). -/
opaque Config.romContent : Nat → Byte

/-- The byte a physical address outside ROM holds until something writes it, drawn once per byte
(R29, U1; assumption 4). -/
opaque Config.powerOnByte : Nat → Byte

/-- The byte the IoDispatcher answers at one call, by draw number and address (R63(d), U12; assumption 8). -/
opaque Config.ioByte : Nat → CpuAddr → Byte

/-- How many engine calls the driving loop gives after an operation, by draw number, before reduction to its bound `k`
(R75, R190; assumption 13). -/
opaque Config.callsAfter : Nat → Nat

/-- `phase` after the operation Reset, by draw number (R270, U16; assumption 7). -/
opaque Config.freePhase : Nat → Phase

/-- `lp` after the operation Reset, before reduction to `PA_BITS` bits (R270, U16; assumption 7). -/
opaque Config.freeListPointer : Nat → Nat

/-- `cur` after the operation Reset (R270, U16; assumption 7). -/
opaque Config.freeDescriptor : Nat → Descriptor

/-- `remaining` after the operation Reset (R270, U16; assumption 7). -/
opaque Config.freeRemaining : Nat → Fin 65537

/-- `src_cur` and `tgt_cur` after the operation Reset (R270, U16; assumption 7). -/
opaque Config.freeCursor : Nat → SideName → Addr20

end Sys2Proof
end

