-- ==== Sys2Proof/Machine/Bank.lean ====
section
/-! DEFINITION. The pure functions of the address translator: `cp`, `entry`, `recompute`, `translate` (R140 to R152). -/

namespace Sys2Proof.Machine

/-- BankConfig (R21 to R25). -/
structure BankConfig where
  mapMask : Byte
  mapOffsetLow : Addr20
  mapOffsetHigh : Addr20
  /-- `MB_BITS` bits (R23). -/
  mapMegabyteLow : Nat
  /-- `MB_BITS` bits (R23). -/
  mapMegabyteHigh : Nat
  cpuPortDdr : Byte
  cpuPortData : Byte
  romOverlayBits : Byte
deriving DecidableEq, Repr, Inhabited

/-- One translation-table entry (R27). -/
structure Entry where
  ro : Addr20
  wo : Addr20
  rm : Nat
  wm : Nat
  io : Bool
deriving DecidableEq, Repr, Inhabited

/-- The intent of an access (R151). -/
inductive Intent where
  | read
  | write
deriving DecidableEq, Repr

/-- What `translate` answers (R151): a physical address, an I/O address, or the inconsistency of R152. -/
inductive Target where
  | physical (pa : Nat)
  | io (a : CpuAddr)
  | inconsistent (a : CpuAddr)
deriving DecidableEq, Repr

/-- An overlay window (R141): its base, its register mask, the address of its ROM image. -/
structure OverlayWindow where
  base : Addr20
  mask : Byte
  pa : Addr20
deriving DecidableEq, Repr

/-- BankConfig after reset (R41). -/
def resetBank : BankConfig := ⟨0, 0, 0, 0, 0, 0, 0, 0⟩

/-- `cp(cfg)` (R140). -/
def cpuPort (c : BankConfig) : BitVec 3 := (c.cpuPortData ||| ~~~c.cpuPortDdr).extractLsb' 0 3

/-- `DIRECT` (R142). -/
def directEntry : Entry := ⟨0, 0, 0, 0, false⟩

/-- The overlay window a region lies in (R141). -/
def overlayWindow (p : Params) (n : Region) : Option OverlayWindow :=
  match n.val with
  | 8 | 9 => some ⟨0x08000, p.ov8Mask, p.ov8Pa⟩
  | 10 | 11 => some ⟨0x0A000, p.ovAMask, p.ovAPa⟩
  | 12 => some ⟨0x0C000, p.ovCMask, p.ovCPa⟩
  | 14 | 15 => some ⟨0x0E000, p.ovEMask, p.ovEPa⟩
  | _ => none

/-- `overlay_claims(cfg, n)` (R142). -/
def overlayClaims (p : Params) (c : BankConfig) (n : Region) : Bool :=
  match overlayWindow p n with
  | some w => (c.romOverlayBits &&& w.mask) != 0
  | none => false

/-- The `map_mask` bit of a region's block `n >> 1` (R141). -/
def mapClaims (c : BankConfig) (n : Region) : Bool := c.mapMask.getLsbD (n.val / 2)

/-- `entry_overlay(n)` (R143). -/
def entryOverlay (p : Params) (n : Region) : Entry :=
  match overlayWindow p n with
  | none => directEntry
  | some w =>
    match p.overlayWrite with
    | .discard => ⟨w.pa - w.base, w.pa - w.base, 0, 0, false⟩
    | .ramUnder => ⟨w.pa - w.base, 0, 0, 0, false⟩

/-- A megabyte selector as the rules read it: `MB_BITS` bits, so 0 in BASE (R23). -/
def megabyte (p : Params) (mb : Nat) : Nat := mb % 2 ^ p.mbBits

/-- `entry_mapped(cfg, n)` (R144). -/
def entryMapped (p : Params) (c : BankConfig) (n : Region) : Entry :=
  if n.val ≤ 7 then
    ⟨c.mapOffsetLow, c.mapOffsetLow, megabyte p c.mapMegabyteLow, megabyte p c.mapMegabyteLow, false⟩
  else
    ⟨c.mapOffsetHigh, c.mapOffsetHigh, megabyte p c.mapMegabyteHigh, megabyte p c.mapMegabyteHigh, false⟩

/-- The `PORT_POLICY` row the CPU port selects (R150). -/
def portRow (p : Params) (c : BankConfig) : PortRow := p.portPolicy.get (cpuPort c).toFin

/-- `entry_port_A(cfg)` (R147). -/
def entryPortA (p : Params) (c : BankConfig) : Entry :=
  match (portRow p c).a with
  | .basic => ⟨p.romBasicPa - 0x0A000, 0, 0, 0, false⟩
  | .ram => directEntry

/-- `entry_port_D(cfg)` (R148). -/
def entryPortD (p : Params) (c : BankConfig) : Entry :=
  match (portRow p c).d with
  | .io => ⟨0, 0, 0, 0, true⟩
  | .chargen => ⟨p.romChargenPa - 0x0D000, 0, 0, 0, false⟩
  | .ram => directEntry

/-- `entry_port_E(cfg)` (R149). -/
def entryPortE (p : Params) (c : BankConfig) : Entry :=
  match (portRow p c).e with
  | .kernal => ⟨p.romKernalPa - 0x0E000, 0, 0, 0, false⟩
  | .ram => directEntry

/-- The entry of a region no overlay and no `map_mask` bit claims (R145 to R149). -/
def entryUnclaimed (p : Params) (c : BankConfig) (n : Region) : Entry :=
  match n.val with
  | 10 | 11 => entryPortA p c
  | 13 => entryPortD p c
  | 14 | 15 => entryPortE p c
  | _ => directEntry

/-- `entry(cfg, n)` (R142): overlay, then `map_mask`, then direct or the CPU port. -/
def entry (p : Params) (c : BankConfig) (n : Region) : Entry :=
  if overlayClaims p c n then entryOverlay p n
  else if mapClaims c n then entryMapped p c n
  else entryUnclaimed p c n

/-- `recompute(cfg)` (R142): the sixteen entries, each computed independently. -/
def recompute (p : Params) (c : BankConfig) : Vector Entry 16 :=
  #v[entry p c 0, entry p c 1, entry p c 2, entry p c 3, entry p c 4, entry p c 5, entry p c 6, entry p c 7,
     entry p c 8, entry p c 9, entry p c 10, entry p c 11, entry p c 12, entry p c 13, entry p c 14, entry p c 15]

/-- The region of a CPU address, `addr[15:12]` (R7). -/
def regionOf (addr : CpuAddr) : Region := (addr.extractLsb' 12 4).toFin

/-- The offset of an entry for an intent (R151). -/
def Entry.offset (e : Entry) (intent : Intent) : Addr20 :=
  match intent with
  | .read => e.ro
  | .write => e.wo

/-- The megabyte selector of an entry for an intent (R151). -/
def Entry.selector (e : Entry) (intent : Intent) : Nat :=
  match intent with
  | .read => e.rm
  | .write => e.wm

/-- The physical address an entry gives a CPU address: the whole address is added, inside the 1MB slice (R151). -/
def Entry.physical (e : Entry) (addr : CpuAddr) (intent : Intent) : Nat :=
  e.selector intent * 2 ^ 20 + (e.offset intent + addr.setWidth 20).toNat

/-- `translate(addr, intent)` (R151, R152). -/
def translate (tt : Vector Entry 16) (addr : CpuAddr) (intent : Intent) : Target :=
  let e := tt.get (regionOf addr)
  if e.io then
    if regionOf addr = 13 then .io addr else .inconsistent addr
  else .physical (e.physical addr intent)

end Sys2Proof.Machine
end

