-- ==== Sys2Proof/Machine/Memory.lean ====
section
/-! DEFINITION. PhysicalStore as data: the list of the bytes something has written, in one canonical form (R29). -/

namespace Sys2Proof.Machine

/-- The written bytes, by physical address, addresses strictly rising. -/
abbrev Memory := List Host.Cell

/-- What an unlisted address reads as at this level: no value. `physRead` gives such a byte its free value
(R29, U1; assumption 4). -/
def Memory.unlisted (_a : Nat) : Option Byte := none

/-- The byte written at an address, if any. -/
def Memory.read : Memory → Nat → Option Byte
  | [], a => Memory.unlisted a
  | (k, b) :: m, a => if k = a then some b else Memory.read m a

/-- Writes one byte, keeping the addresses strictly rising. -/
def Memory.write : Memory → Nat → Byte → Memory
  | [], a, v => [(a, v)]
  | (k, b) :: m, a, v =>
    if a < k then (a, v) :: (k, b) :: m
    else if a = k then (a, v) :: m
    else (k, b) :: Memory.write m a v

/-- Every address of the list is above `lo`, and they rise strictly. -/
def Memory.risesAbove : Memory → Nat → Bool
  | [], _ => true
  | (k, _) :: m, lo => lo < k && Memory.risesAbove m k

/-- The canonical form: addresses strictly rising, and no entry equal to what an unlisted address reads as. -/
def Memory.wf : Memory → Bool
  | [] => true
  | (k, b) :: m => Memory.risesAbove m k && ((k, b) :: m).all (fun c => some c.2 != Memory.unlisted c.1)

/-- Every listed address lies below the size of the store (R29). -/
def Memory.within (m : Memory) (size : Nat) : Bool := m.all (fun c => c.1 < size)

end Sys2Proof.Machine
end

