-- ==== Sys2Proof/Machine/State.lean ====
section
/-! DEFINITION. The machine's state as plain data (R20 to R42), the reasons a step can stop, and the state after reset. -/

namespace Sys2Proof.Machine

/-- A fatal condition and its recorded `info` (R240). -/
inductive Fatal where
  /-- F1 (R241): the 16-bit CPU address. -/
  | configInconsistency (addr : CpuAddr)
  /-- F2 (R242): the value of `lp`. -/
  | runawayDma (lp : Nat)
deriving DecidableEq, Repr

/-- A logged recovery (R40, R240). -/
inductive Event where
  /-- L1 (R243). -/
  | unimplementedIo (a : CpuAddr)
  /-- L2 (R244). -/
  | unknownDmaCommand (v : BitVec 2)
  /-- L3 (R245). -/
  | retriggerWhileBusy
deriving DecidableEq, Repr

/-- One access the IoDispatcher sees (R63). -/
inductive IoAccess where
  | read (a : CpuAddr) (v : Byte)
  | write (a : CpuAddr) (v : Byte)
deriving DecidableEq, Repr

/-- The reasons a step stops with a fault. -/
inductive Fault where
  /-- Raised by every operation but Reset, and by an idle step, in the halted state, which the spec makes terminal
  (R249). Safe: the spec gives the operation no meaning there. -/
  | halted (cause : Fatal)
deriving DecidableEq, Repr

/-- The reasons a step has no meaning. -/
inductive Refusal where
  /-- Raised by `exec` for an instruction that has no meaning in the model; no arm does. Safe. -/
  | notModelled (mnemonic : String)
  /-- Raised by an Execute step whose IoWrite reaches DMA register 0: `refuse(NestedDmaStart)` (R191). Safe. -/
  | nestedDmaStart
  /-- Raised by a DMA start in variant EXTENDED, which a model must refuse (R106, U15). Safe. -/
  | extendedDmaStart
deriving DecidableEq, Repr

/-- The state of the block. INVENTORY.md lists each field with its rule. -/
structure State where
  /-- The MODEL's own: the configuration record of R5, which no operation writes (assumption 1). -/
  params : Params
  /-- BankConfig (R21 to R25). -/
  cfg : BankConfig
  /-- The translation table (R27). -/
  tt : Vector Entry 16
  /-- PhysicalStore (R29). -/
  phys : Memory
  /-- DMA register 0, LIST_LO (R32). -/
  dreg0 : Byte
  /-- DMA register 1, LIST_HI (R32). -/
  dreg1 : Byte
  /-- DMA register 2, LIST_BANK (R32). -/
  dreg2 : Byte
  /-- R33. -/
  busy : Bool
  /-- `chain_cont` (R33). -/
  chainCont : Bool
  /-- R33. -/
  phase : Phase
  /-- `list_pointer`, a physical address of `PA_BITS` bits (R34). -/
  lp : Nat
  /-- `current_descriptor` (R35). -/
  cur : Descriptor
  /-- `remaining_length`, 0 to 65536 (R36). -/
  remaining : Nat
  /-- `source_cursor` (R37). -/
  srcCur : Addr20
  /-- `target_cursor` (R37). -/
  tgtCur : Addr20
  /-- `iter_count` (R39). -/
  iterCount : Nat
  /-- The halt latch (R40). -/
  halted : Option Fatal
  /-- The diagnostic log, newest event first (R40). -/
  log : List Event
  /-- The MODEL's own: the accesses the IoDispatcher has seen, newest first (R63; assumption 19). -/
  ioTrace : List IoAccess
  /-- The MODEL's own: how many free values have been drawn (R63(d), R75, R270; assumption 8). -/
  draws : Nat
  /-- The MODEL's own: the byte the block last returned to the CPU (R113; assumption 14). -/
  result : Option Byte
  /-- The MODEL's own: the operations the external agents will issue, in order (R9, R113; assumption 12). -/
  inputs : List Instr
  /-- The MODEL's own: engine calls the driving loop still gives before the next waiting operation (R75; assumption 13). -/
  credit : Nat
deriving DecidableEq, Repr

/-- The outcome of an operation of the block (R10). -/
abbrev Out := Host.Outcome State Fault Refusal

/-- One side after reset, the latch of an all-zero ADDR3 field (assumption 6). -/
def resetSide : SideLatch := ⟨0, false, .up, 0⟩

/-- `cur` after reset, the latch of an all-zero descriptor (assumption 6). -/
def resetDescriptor : Descriptor := ⟨0, 0, resetSide, resetSide, 0, 0⟩

/-- The machine right after reset (R41, R270), under profile P0. Fields R41 calls unspecified hold the value that
assumption 6 names. -/
def State.reset : State where
  params := profileP0
  cfg := resetBank
  tt := recompute profileP0 resetBank
  phys := []
  dreg0 := 0
  dreg1 := 0
  dreg2 := 0
  busy := false
  chainCont := false
  phase := .fetch
  lp := 0
  cur := resetDescriptor
  remaining := 0
  srcCur := 0
  tgtCur := 0
  iterCount := 0
  halted := none
  log := []
  ioTrace := []
  draws := 0
  result := none
  inputs := []
  credit := 0

/-! The updates of State, each of a few fields; the operations write the state through these. -/

/-- Writes BankConfig and rebuilds the table in one operation (R28, R72). -/
def State.setBank (s : State) (c : BankConfig) : State := { s with cfg := c, tt := recompute s.params c }
/-- Writes PhysicalStore. -/
def State.setPhys (s : State) (m : Memory) : State := { s with phys := m }
/-- Writes DMA register 0's byte. -/
def State.setDreg0 (s : State) (v : Byte) : State := { s with dreg0 := v }
/-- Writes DMA register 1's byte. -/
def State.setDreg1 (s : State) (v : Byte) : State := { s with dreg1 := v }
/-- Writes DMA register 2's byte. -/
def State.setDreg2 (s : State) (v : Byte) : State := { s with dreg2 := v }
/-- Writes the engine's flags and phase (R33). -/
def State.setFlags (s : State) (busy chainCont : Bool) (phase : Phase) : State :=
  { s with busy := busy, chainCont := chainCont, phase := phase }
/-- Writes `lp`. -/
def State.setLp (s : State) (lp : Nat) : State := { s with lp := lp }
/-- Writes the current descriptor. -/
def State.setCur (s : State) (d : Descriptor) : State := { s with cur := d }
/-- Writes `remaining`. -/
def State.setRemaining (s : State) (n : Nat) : State := { s with remaining := n }
/-- Writes both cursors. -/
def State.setCursors (s : State) (src tgt : Addr20) : State := { s with srcCur := src, tgtCur := tgt }
/-- Writes `iter_count`. -/
def State.setIter (s : State) (n : Nat) : State := { s with iterCount := n }
/-- Writes the halt latch. -/
def State.setHalted (s : State) (h : Option Fatal) : State := { s with halted := h }
/-- Appends an event to the log. -/
def State.pushLog (s : State) (e : Event) : State := { s with log := e :: s.log }
/-- Appends an access to the I/O trace. -/
def State.pushIo (s : State) (x : IoAccess) : State := { s with ioTrace := x :: s.ioTrace }
/-- Counts one free draw. -/
def State.bumpDraws (s : State) : State := { s with draws := s.draws + 1 }
/-- Writes the byte returned to the CPU. -/
def State.setResult (s : State) (v : Byte) : State := { s with result := some v }
/-- Writes what the driving loop has still to do. -/
def State.setSchedule (s : State) (inputs : List Instr) (credit : Nat) : State :=
  { s with inputs := inputs, credit := credit }

end Sys2Proof.Machine
end

