-- ==== Sys2Proof/Machine/Flags.lean ====
section
/-! DEFINITION. The flags of the block, `busy` and `chain_cont` (R33): how they are read (R112) and how completion and
chaining write them (R189). The block has no other flag. -/

namespace Sys2Proof.Machine

/-- `status()` (R112, R184). -/
def statusByte (s : State) : Byte :=
  (if s.busy then 0x80 else 0x00) ||| (if s.chainCont then 0x01 else 0x00)

/-- `complete()` (R189): back to Fetch when the command byte has the chain bit, else idle. -/
def complete (chained : Bool) (s : State) : State :=
  if chained then s.setFlags s.busy true .fetch
  else s.setFlags false false s.phase

end Sys2Proof.Machine
end

