-- ==== Sys2Proof/WellFormed.lean ====
section
/-! DEFINITION. Which instructions the formats of R100 admit under a configuration: the command is implemented (R104),
an Unknown carries a code that is not (R118), and the operands of SetMap fit their widths (R113). -/

namespace Sys2Proof

/-- The operands of SetMap fit the widths of R113: 20-bit offsets, `MB_BITS`-bit selectors. -/
def setMapFits (p : Params) (offLo offHi mbLo mbHi : Nat) : Bool :=
  offLo < 2 ^ 20 && offHi < 2 ^ 20 && mbLo < 2 ^ p.mbBits && mbHi < 2 ^ p.mbBits

/-- Well-formed instructions. Every other operand's type admits exactly the values of its format. -/
def WellFormed (p : Params) (i : Instr) : Bool :=
  match i with
  | .copy _ => p.implementedOps.copy
  | .mix _ => p.implementedOps.mix
  | .swap _ => p.implementedOps.swap
  | .fill _ => p.implementedOps.fill
  | .unknown opc _ => !p.implementedOps.has opc
  | .desc11 _ => true
  | .addr3 _ _ => true
  | .dmaRegWriteListLo _ => true
  | .dmaRegReadListLo => true
  | .dmaRegWriteListHi _ => true
  | .dmaRegReadListHi => true
  | .dmaRegWriteListBank _ => true
  | .dmaRegReadListBank => true
  | .dmaRegWriteStatus _ => true
  | .dmaRegReadStatus => true
  | .setMap _ offLo offHi mbLo mbHi => setMapFits p offLo offHi mbLo mbHi
  | .writePortDdr _ => true
  | .writePortData _ => true
  | .writeOverlay _ => true
  | .cpuRead _ => true
  | .cpuWrite _ _ => true
  | .cpuFetch _ => true
  | .dmaStep => true
  | .reset => true

end Sys2Proof
end

