-- ==== Sys2Proof/Decode.lean ====
section
/-! DEFINITION. The decoder, total on any bytes and rejecting by name, and the encoder, both from the tables of
`30_encoding.md` (R101, R103 to R105, R110). -/

namespace Sys2Proof

/-- Why no instruction is read. -/
inductive DecodeError where
  /-- Fewer bytes than the format has. -/
  | tooShort (f : Format)
  /-- A register index of 4 or more is not a register of the block (R110). -/
  | noSuchRegister (i : Byte)
  /-- A port operation has no bit encoding (R100(f)). -/
  | noBitEncoding
deriving DecidableEq, Repr

/-- What the decoder answers: the instruction and the bytes after it, or a named rejection. -/
inductive DecodeResult where
  | ok (i : Instr) (rest : List Byte)
  | rejected (e : DecodeError)
deriving DecidableEq, Repr

/-- The CMD bits 7:2 of a command byte (R103). -/
def cmdBitsOf (b : Byte) : CmdBits :=
  ⟨b.getLsbD 2, b.getLsbD 3, b.getLsbD 4, b.getLsbD 5, b.getLsbD 6, b.getLsbD 7⟩

/-- The operation code, bits 1:0 of a command byte (R103). -/
def opcOf (b : Byte) : BitVec 2 := b.extractLsb' 0 2

/-- `decode_op` (R104). -/
def decodeOp (ops : OpSet) (b : Byte) : Op :=
  if ops.has (opcOf b) then
    match (opcOf b).toNat with
    | 0 => .copy
    | 1 => .mix
    | 2 => .swap
    | _ => .fill
  else .unknown (opcOf b)

/-- The instruction a command byte stands for (R103, R104). Total: every byte decodes. -/
def decodeCmd (ops : OpSet) (b : Byte) : Instr :=
  match decodeOp ops b with
  | .copy => .copy (cmdBitsOf b)
  | .mix => .mix (cmdBitsOf b)
  | .swap => .swap (cmdBitsOf b)
  | .fill => .fill (cmdBitsOf b)
  | .unknown v => .unknown v (cmdBitsOf b)

/-- The fields of a 24-bit ADDR3 word (R105). -/
def addr3OfWord (w : BitVec 24) : Addr3 :=
  ⟨w.extractLsb' 0 20, w.getLsbD 20, w.getLsbD 21, w.getLsbD 22, w.getLsbD 23⟩

/-- Three bytes, least significant first, as an ADDR3 field (R67, R105). -/
def addr3OfBytes (b0 b1 b2 : Byte) : Addr3 := addr3OfWord (b2 ++ b1 ++ b0)

/-- The descriptor of eleven bytes in ascending address order (R101). -/
def desc11OfBytes (b0 b1 b2 b3 b4 b5 b6 b7 b8 b9 b10 : Byte) : Desc11 where
  command := b0
  length := b2 ++ b1
  source := addr3OfBytes b3 b4 b5
  target := addr3OfBytes b6 b7 b8
  modulo := b10 ++ b9

/-- The write of DMA register `i` (R110). -/
def regWriteInstr (i : BitVec 2) (v : Byte) : Instr :=
  match i.toNat with
  | 0 => .dmaRegWriteListLo v
  | 1 => .dmaRegWriteListHi v
  | 2 => .dmaRegWriteListBank v
  | _ => .dmaRegWriteStatus v

/-- The read of DMA register `i` (R110). -/
def regReadInstr (i : BitVec 2) : Instr :=
  match i.toNat with
  | 0 => .dmaRegReadListLo
  | 1 => .dmaRegReadListHi
  | 2 => .dmaRegReadListBank
  | _ => .dmaRegReadStatus

/-- The decoder of each format. DESIGN CHOICE (assumption 16): R100(f) gives register writes and reads no bit encoding, and
the model's byte form of one is its index of R110 and, for a write, its data byte. -/
def decode (ops : OpSet) (f : Format) (bytes : List Byte) : DecodeResult :=
  match f with
  | .cmd =>
    match bytes with
    | b :: rest => .ok (decodeCmd ops b) rest
    | [] => .rejected (.tooShort f)
  | .desc11 =>
    match bytes with
    | b0 :: b1 :: b2 :: b3 :: b4 :: b5 :: b6 :: b7 :: b8 :: b9 :: b10 :: rest =>
      .ok (.desc11 (desc11OfBytes b0 b1 b2 b3 b4 b5 b6 b7 b8 b9 b10)) rest
    | _ => .rejected (.tooShort f)
  | .addr3 side =>
    match bytes with
    | b0 :: b1 :: b2 :: rest => .ok (.addr3 side (addr3OfBytes b0 b1 b2)) rest
    | _ => .rejected (.tooShort f)
  | .regWrite =>
    match bytes with
    | i :: v :: rest =>
      if i.toNat < 4 then .ok (regWriteInstr (i.extractLsb' 0 2) v) rest else .rejected (.noSuchRegister i)
    | _ => .rejected (.tooShort f)
  | .regRead =>
    match bytes with
    | i :: rest =>
      if i.toNat < 4 then .ok (regReadInstr (i.extractLsb' 0 2)) rest else .rejected (.noSuchRegister i)
    | _ => .rejected (.tooShort f)
  | .port => .rejected .noBitEncoding

/-- A command byte from its operation code and CMD bits (R103, R117). -/
def cmdByteOf (opc : BitVec 2) (c : CmdBits) : Byte :=
  BitVec.ofBool c.mt3 ++ BitVec.ofBool c.mt2 ++ BitVec.ofBool c.mt1 ++ BitVec.ofBool c.mt0
    ++ BitVec.ofBool c.rsv3 ++ BitVec.ofBool c.chain ++ opc

/-- The 24-bit word of an ADDR3 field (R105). -/
def addr3Word (a : Addr3) : BitVec 24 :=
  BitVec.ofBool a.io ++ BitVec.ofBool a.dir ++ BitVec.ofBool a.modEn ++ BitVec.ofBool a.hold ++ a.addr

/-- The three bytes of an ADDR3 field, least significant first (R67). -/
def addr3Bytes (a : Addr3) : List Byte :=
  [(addr3Word a).extractLsb' 0 8, (addr3Word a).extractLsb' 8 8, (addr3Word a).extractLsb' 16 8]

/-- The two bytes of a 16-bit field, least significant first (R67). -/
def wordBytes (w : BitVec 16) : List Byte := [w.extractLsb' 0 8, w.extractLsb' 8 8]

/-- The eleven bytes of a descriptor (R101). -/
def desc11Bytes (d : Desc11) : List Byte :=
  d.command :: (wordBytes d.length ++ addr3Bytes d.source ++ addr3Bytes d.target ++ wordBytes d.modulo)

/-- The format of an instruction (R100). -/
def formatOf (i : Instr) : Format :=
  match i with
  | .copy _ | .mix _ | .swap _ | .fill _ | .unknown _ _ => .cmd
  | .desc11 _ => .desc11
  | .addr3 side _ => .addr3 side
  | .dmaRegWriteListLo _ | .dmaRegWriteListHi _ | .dmaRegWriteListBank _ | .dmaRegWriteStatus _ => .regWrite
  | .dmaRegReadListLo | .dmaRegReadListHi | .dmaRegReadListBank | .dmaRegReadStatus => .regRead
  | .setMap _ _ _ _ _ | .writePortDdr _ | .writePortData _ | .writeOverlay _ | .cpuRead _ | .cpuWrite _ _
  | .cpuFetch _ | .dmaStep | .reset => .port

/-- The encoder: the bytes of an instruction in ascending order; none for a port operation (R100(f)). A register write
is its index and its data byte, a register read its index (R110, R113; assumption 16). -/
def encode (i : Instr) : Option (List Byte) :=
  match i with
  | .copy c => some [cmdByteOf 0 c]
  | .mix c => some [cmdByteOf 1 c]
  | .swap c => some [cmdByteOf 2 c]
  | .fill c => some [cmdByteOf 3 c]
  | .unknown opc c => some [cmdByteOf opc c]
  | .desc11 d => some (desc11Bytes d)
  | .addr3 _ a => some (addr3Bytes a)
  | .dmaRegWriteListLo v => some [0, v]
  | .dmaRegReadListLo => some [0]
  | .dmaRegWriteListHi v => some [1, v]
  | .dmaRegReadListHi => some [1]
  | .dmaRegWriteListBank v => some [2, v]
  | .dmaRegReadListBank => some [2]
  | .dmaRegWriteStatus v => some [3, v]
  | .dmaRegReadStatus => some [3]
  | .setMap _ _ _ _ _ => none
  | .writePortDdr _ => none
  | .writePortData _ => none
  | .writeOverlay _ => none
  | .cpuRead _ => none
  | .cpuWrite _ _ => none
  | .cpuFetch _ => none
  | .dmaStep => none
  | .reset => none

/-- The first `n` bytes of a number, least significant first. -/
def bytesOfNat : Nat → Nat → List Byte
  | 0, _ => []
  | n + 1, w => BitVec.ofNat 8 w :: bytesOfNat n (w / 256)

/-- The format a table row of `nbits` bits is read in, and its length in bytes: a register index (2 bits, with its
data byte of zeros), a command byte, an ADDR3 field, a descriptor (assumptions 16 and 17). -/
def tableFormat (nbits : Nat) : Option (Format × Nat) :=
  if nbits = 0 then none
  else if nbits < 8 then some (.regWrite, 2)
  else if nbits = 8 then some (.cmd, 1)
  else if nbits = 24 then some (.addr3 .src, 3)
  else if nbits = 88 then some (.desc11, 11)
  else none

/-- The instruction the decoder reads from a table row's word, with the operations of BASE (R5). -/
def decodeTableWord (nbits w : Nat) : Option Instr :=
  match tableFormat nbits with
  | none => none
  | some (f, n) =>
    match decode OpSet.all f (bytesOfNat n w) with
    | .ok i _ => some i
    | .rejected _ => none

end Sys2Proof
end

