-- ==== Sys2Proof/Machine/Operands.lean ====
section
/-! DEFINITION. Operand assembly of the DMA engine (R65, R106 to R108, R111): steps, lengths, minterms, list address,
cursors and the addresses they give, and the latch of a side and of a descriptor. -/

namespace Sys2Proof.Machine

/-- `stepof(A)` (R106): HOLD wins over DIR. -/
def stepOf (a : Addr3) : Step := if a.hold then .hold else if a.dir then .down else .up

/-- A cursor moved by its step, mod 2^20 (R37, R188). -/
def advance (c : Addr20) (t : Step) : Addr20 :=
  match t with
  | .down => c - 1
  | .hold => c
  | .up => c + 1

/-- The count a length field stands for: 0 means 65536 (R107). -/
def countOf (length : BitVec 16) : Nat := if length = 0 then 65536 else length.toNat

/-- A minterm mask from its command bit (R108). -/
def mintermMask (bit : Bool) : Byte := if bit then 0xFF else 0x00

/-- Mix's minterm function (R211). -/
def mixByte (c : CmdBits) (s d : Byte) : Byte :=
  (s &&& d &&& mintermMask c.mt3) ||| (s &&& ~~~d &&& mintermMask c.mt2)
    ||| (~~~s &&& d &&& mintermMask c.mt1) ||| (~~~s &&& ~~~d &&& mintermMask c.mt0)

/-- `list_address = dreg[2] ++ dreg[1] ++ dreg[0]` (R111). -/
def listAddress (s : State) : BitVec 24 := s.dreg2 ++ s.dreg1 ++ s.dreg0

/-- A side of the current descriptor (R65). -/
def sideOf (s : State) (n : SideName) : SideLatch :=
  match n with
  | .src => s.cur.src
  | .tgt => s.cur.tgt

/-- A side's live cursor (R37, R65). -/
def cursorOf (s : State) (n : SideName) : Addr20 :=
  match n with
  | .src => s.srcCur
  | .tgt => s.tgtCur

/-- The I/O address of a cursor, `$D000 | c[11:0]` (R65). -/
def ioAddrOf (c : Addr20) : CpuAddr := 0xD000 ||| (c.extractLsb' 0 12).setWidth 16

/-- The physical address of a cursor, `mb * 2^20 + c` (R65). -/
def physAddrOf (d : SideLatch) (c : Addr20) : Nat := d.mb * 2 ^ 20 + c.toNat

/-- The latched form of an ADDR3 field (R105, R106, R187): `mb` is 0. -/
def sideLatch (a : Addr3) : SideLatch := ⟨a.addr, a.io, stepOf a, 0⟩

/-- The fetch's effect of one ADDR3 field: the side and its cursor (R187). -/
def latchSide (n : SideName) (a : Addr3) (s : State) : State :=
  match n with
  | .src => (s.setCur { s.cur with src := sideLatch a }).setCursors a.addr s.tgtCur
  | .tgt => (s.setCur { s.cur with tgt := sideLatch a }).setCursors s.srcCur a.addr

end Sys2Proof.Machine
end

