-- ==== Sys2Proof/Machine/Ops.lean ====
section
/-! DEFINITION. The named operations every meaning is built from: raising a fatal condition (R248), the halted state
(R249), PhysicalStore (R61, R62), the BankConfig ports (R153 to R156), the DMA registers (R180, R184), the IoDispatcher
seam (R63) and the driving loop's turn (R75, R190). -/

namespace Sys2Proof.Machine

/-! ### Fatal conditions -/

/-- `raise Fatal(c, info)` (R248): sets the latch and keeps every other field as it is at the raising line. There is no
handler, no saved state and no return (R250); only Reset clears the latch. -/
def raiseFatal (f : Fatal) (s : State) : Out := .next (s.setHalted (some f))

/-- An operation runs only while the block is not halted (R249). -/
def whenRunning (s : State) (k : State → Out) : Out :=
  match s.halted with
  | none => k s
  | some f => .fault (.halted f)

/-- Sequencing inside one operation: a fatal condition stops the operation at the raising line (R248). -/
def andThen (o : Out) (k : State → Out) : Out :=
  match o with
  | .next s =>
    match s.halted with
    | none => k s
    | some _ => .next s
  | .fault f => .fault f
  | .refused r => .refused r

/-! ### PhysicalStore -/

/-- A physical address reduced mod 2^PA_BITS (R29). -/
def wrapPhys (p : Params) (pa : Nat) : Nat := pa % p.physSize

/-- The region of `PHYS_MAP` that holds an address (R30). -/
def regionAt (p : Params) (a : Nat) : Option PhysRegion := p.physMap.find? (fun r => r.contains a)

/-- May the byte be written (R30, R62)? An address of no region, which no legal `PHYS_MAP` has, counts as writable
(assumption 22). -/
def writableAt (p : Params) (a : Nat) : Bool :=
  match regionAt p a with
  | some r => r.writable
  | none => true

/-- Does the byte lie in a ROM region? -/
def romAt (p : Params) (a : Nat) : Bool :=
  match regionAt p a with
  | some r => r.kind == .rom
  | none => false

/-- What a byte that nothing has written reads as: ROM_CONTENT in ROM, a free value elsewhere (R29, U1, U2). -/
def unwrittenByte (p : Params) (a : Nat) : Byte := if romAt p a then Config.romContent a else Config.powerOnByte a

/-- `PhysRead(pa)` (R61). -/
def physRead (s : State) (pa : Nat) : Byte :=
  match Memory.read s.phys (wrapPhys s.params pa) with
  | some b => b
  | none => unwrittenByte s.params (wrapPhys s.params pa)

/-- `PhysWrite(pa, v)` (R62): a write to a region that is not writable is discarded. -/
def physWrite (pa : Nat) (v : Byte) (s : State) : State :=
  if writableAt s.params (wrapPhys s.params pa) then s.setPhys (Memory.write s.phys (wrapPhys s.params pa) v)
  else s

/-! ### BankConfig ports -/

/-- SetMap's effect (R153): operands reduced to their widths (R22, R23), the table rebuilt. -/
def setMap (mask : Byte) (offLo offHi mbLo mbHi : Nat) (s : State) : State :=
  s.setBank { s.cfg with
    mapMask := mask
    mapOffsetLow := BitVec.ofNat 20 offLo
    mapOffsetHigh := BitVec.ofNat 20 offHi
    mapMegabyteLow := megabyte s.params mbLo
    mapMegabyteHigh := megabyte s.params mbHi }

/-- WritePortDdr's effect (R154). -/
def writePortDdr (v : Byte) (s : State) : State := s.setBank { s.cfg with cpuPortDdr := v }

/-- WritePortData's effect (R155). -/
def writePortData (v : Byte) (s : State) : State := s.setBank { s.cfg with cpuPortData := v }

/-- WriteOverlay's effect (R156). -/
def writeOverlay (v : Byte) (s : State) : State := s.setBank { s.cfg with romOverlayBits := v }

/-! ### Platform bindings -/

/-- The write of a BankConfig port (R154 to R156). -/
def portWrite (b : BankPort) (v : Byte) (s : State) : State :=
  match b with
  | .ddr => writePortDdr v s
  | .data => writePortData v s
  | .overlay => writeOverlay v s

/-- The BankConfig port bound to a physical address (R5, D12). A write that R62 discards changes no state, so it reaches
no port. DESIGN CHOICE (assumption 10): the first binding listed counts. -/
def memBindingAt (p : Params) (a : Nat) : Option BankPort :=
  match p.memBindings.find? (fun b => b.1 == a) with
  | some b => if writableAt p a then some b.2 else none
  | none => none

/-- A byte the CPU or the engine writes to memory: `PhysWrite` (R62), and the port the platform binds there (R5, D12).
DESIGN CHOICE (assumption 10): the byte is stored as well, and the port's write, with its `recompute`, is part of the
same operation, as R63(d) says of an I/O binding. -/
def memStore (pa : Nat) (v : Byte) (s : State) : State :=
  match memBindingAt s.params (wrapPhys s.params pa) with
  | some b => portWrite b v (physWrite pa v s)
  | none => physWrite pa v s

/-! ### DMA registers -/

/-- `DmaRegRead(i)` (R184). -/
def dmaRegRead (i : BitVec 2) (s : State) : Byte :=
  match i.toNat with
  | 0 => s.dreg0
  | 1 => s.dreg1
  | 2 => s.dreg2
  | _ => statusByte s

/-- The storage of `DmaRegWrite(i, v)` (R180, R181): register 3 stores nothing. The trigger of register 0 is
`dmaRegWrite`. -/
def dmaRegStore (i : BitVec 2) (v : Byte) (s : State) : State :=
  match i.toNat with
  | 0 => s.setDreg0 v
  | 1 => s.setDreg1 v
  | 2 => s.setDreg2 v
  | _ => s

/-! ### The IoDispatcher seam -/

/-- The DMA register an I/O address selects: `DMA_REG_BASE` to `DMA_REG_BASE + 3` (R63(c)). -/
def regIndex (p : Params) (a : CpuAddr) : Option (BitVec 2) :=
  if (a - p.dmaRegBase).toNat < 4 then some ((a - p.dmaRegBase).extractLsb' 0 2) else none

/-- The BankConfig port bound to an I/O address (R63(d), R5). -/
def bindingAt (p : Params) (a : CpuAddr) : Option BankPort :=
  match p.ioBindings.find? (fun b => b.1 == a) with
  | some b => some b.2
  | none => none

/-- Is the I/O register unimplemented (R63(b), R243)? DESIGN CHOICE (assumption 9): an address bound to a BankConfig
port is an implemented register, read and written, even where the list of unimplemented ranges holds it. -/
def unimplementedAt (p : Params) (a : CpuAddr) : Bool :=
  (bindingAt p a).isNone && p.ioUnimplemented.any (fun r => r.1 ≤ a && a ≤ r.2)

/-- `IoRead(a)` (R63): a DMA register, the fallback byte of an unimplemented one, or an oracle draw. It never fails. A
register bound to a BankConfig port answers a draw (assumptions 8, 9). -/
def ioRead (a : CpuAddr) (s : State) : Byte × State :=
  match regIndex s.params a with
  | some i => (dmaRegRead i s, s.pushIo (.read a (dmaRegRead i s)))
  | none =>
    if unimplementedAt s.params a then
      (s.params.ioFallback, (s.pushLog (.unimplementedIo a)).pushIo (.read a s.params.ioFallback))
    else
      (Config.ioByte s.draws a, s.bumpDraws.pushIo (.read a (Config.ioByte s.draws a)))

/-- The effect of an `IoWrite` outside the DMA registers (R63(b), (d)): a bound BankConfig port, a log event, or
nothing inside the block. -/
def ioWriteOther (a : CpuAddr) (v : Byte) (s : State) : State :=
  match bindingAt s.params a with
  | some b => portWrite b v s
  | none => if unimplementedAt s.params a then s.pushLog (.unimplementedIo a) else s

/-- `IoWrite(a, v)` issued by the DMA engine (R63, R65): the trigger of register 0 is refused (R191). -/
def ioWriteEngine (a : CpuAddr) (v : Byte) (s : State) : Out :=
  match regIndex s.params a with
  | some i =>
    if i = 0 then .refused .nestedDmaStart
    else .next (dmaRegStore i v (s.pushIo (.write a v)))
  | none => .next (ioWriteOther a v (s.pushIo (.write a v)))

/-! ### The fetch -/

/-- The sub-command byte of a DESC12 descriptor at `lp`; DESC11 has none and keeps the field (R101, R102). -/
def subcmdAt (s : State) : Byte :=
  match s.params.variant with
  | .base => s.cur.subcmd
  | .extended _ => physRead s (s.lp + 11)

/-- The fetch's effect of the descriptor at `lp` (R187): every field of `cur`, `remaining`, the cursors and the phase,
with `lp` advanced past the descriptor (R34). -/
def latchDescriptor (d : Desc11) (s : State) : State :=
  let c := s.setCur { s.cur with
    command := d.command
    length := d.length
    modulo := d.modulo
    subcmd := subcmdAt s }
  let t := latchSide .tgt d.target (latchSide .src d.source c)
  ((t.setRemaining (countOf d.length)).setLp (wrapPhys s.params (s.lp + s.params.descLen))).setFlags s.busy false .execute

/-- The eleven bytes at `lp`, in ascending order (R66, R101). -/
def descriptorBytes (s : State) : List Byte :=
  [physRead s s.lp, physRead s (s.lp + 1), physRead s (s.lp + 2), physRead s (s.lp + 3), physRead s (s.lp + 4),
   physRead s (s.lp + 5), physRead s (s.lp + 6), physRead s (s.lp + 7), physRead s (s.lp + 8), physRead s (s.lp + 9),
   physRead s (s.lp + 10)]

/-- The descriptor at `lp` (R101, R187). Every byte pattern decodes. -/
def descriptorAt (s : State) : Desc11 :=
  desc11OfBytes (physRead s s.lp) (physRead s (s.lp + 1)) (physRead s (s.lp + 2)) (physRead s (s.lp + 3))
    (physRead s (s.lp + 4)) (physRead s (s.lp + 5)) (physRead s (s.lp + 6)) (physRead s (s.lp + 7))
    (physRead s (s.lp + 8)) (physRead s (s.lp + 9)) (physRead s (s.lp + 10))

/-- `fetch()` (R187). -/
def fetchDescriptor (s : State) : State := latchDescriptor (descriptorAt s) s

/-! ### Reset -/

/-- `cur` after the operation Reset: a free value within the widths of R35 (R270; assumption 7). -/
def freeCurrent (p : Params) (draw : Nat) : Descriptor :=
  let d := Config.freeDescriptor draw
  { d with
    src := { d.src with mb := megabyte p d.src.mb }
    tgt := { d.tgt with mb := megabyte p d.tgt.mb } }

/-- `Reset()` (R270). PhysicalStore keeps what it holds; the fields the rule calls unspecified are free draws. -/
def resetOp (s : State) : State :=
  { s.setBank resetBank with
    dreg0 := 0
    dreg1 := 0
    dreg2 := 0
    busy := false
    chainCont := false
    iterCount := 0
    halted := none
    phase := Config.freePhase s.draws
    lp := wrapPhys s.params (Config.freeListPointer s.draws)
    cur := freeCurrent s.params s.draws
    remaining := (Config.freeRemaining s.draws).val
    srcCur := Config.freeCursor s.draws .src
    tgtCur := Config.freeCursor s.draws .tgt
    draws := s.draws + 1 }

/-! ### The driving loop -/

/-- Does the driving loop call the engine now (R75, R190; assumption 13)? Under DRAIN an active transfer stops everything
else; under INTERLEAVED the engine moves while credit is left, or when no agent has an operation waiting. -/
def engineTurn (s : State) : Bool :=
  s.halted.isNone && s.busy
    && (match s.params.dmaPolicy with
        | .drain => true
        | .interleaved _ => s.credit != 0 || s.inputs.isEmpty)

/-- Is the operation one the CPU issues (R9)? -/
def isCpuOperation (i : Instr) : Bool :=
  match i with
  | .setMap _ _ _ _ _ | .writePortDdr _ | .writePortData _ | .writeOverlay _ => true
  | .cpuRead _ | .cpuWrite _ _ | .cpuFetch _ => true
  | .dmaRegWriteListLo _ | .dmaRegWriteListHi _ | .dmaRegWriteListBank _ | .dmaRegWriteStatus _ => true
  | .dmaRegReadListLo | .dmaRegReadListHi | .dmaRegReadListBank | .dmaRegReadStatus => true
  | .copy _ | .mix _ | .swap _ | .fill _ | .unknown _ _ | .desc11 _ | .addr3 _ _ => false
  | .dmaStep | .reset => false

/-- The engine calls given after an operation: under INTERLEAVED(k) any number up to `k` after a CPU operation, a free
value of the draw number (R75, R190; assumption 13). -/
def creditAfter (p : Params) (i : Instr) (draw : Nat) : Nat :=
  match p.dmaPolicy with
  | .drain => 0
  | .interleaved k => if isCpuOperation i then Config.callsAfter draw % (k + 1) else 0

end Sys2Proof.Machine
end

