-- ==== Sys2Proof/Machine/Engine.lean ====
section
/-! DEFINITION. The DMA engine as shared operations: its accesses (R65), the byte operations (R210 to R214), the Execute
tail (R188), `step()` (R185, R186), the drain and `start` (R182, R183), and the CPU's `IoWrite` that can reach it. -/

namespace Sys2Proof.Machine

/-! ### Accesses -/

/-- `DmaRead(s)` (R65). -/
def dmaRead (n : SideName) (s : State) : Byte × State :=
  if (sideOf s n).io then ioRead (ioAddrOf (cursorOf s n)) s
  else (physRead s (physAddrOf (sideOf s n) (cursorOf s n)), s)

/-- `DmaWrite(s, v)` (R65). -/
def dmaWrite (n : SideName) (v : Byte) (s : State) : Out :=
  if (sideOf s n).io then ioWriteEngine (ioAddrOf (cursorOf s n)) v s
  else .next (memStore (physAddrOf (sideOf s n) (cursorOf s n)) v s)

/-! ### Byte operations -/

/-- `do_copy()` (R210): one read, then one write. -/
def doCopy (s : State) : Out :=
  let r := dmaRead .src s
  dmaWrite .tgt r.1 r.2

/-- `do_mix()` (R211): source read, target read, target written. -/
def doMix (c : CmdBits) (s : State) : Out :=
  let r := dmaRead .src s
  let q := dmaRead .tgt r.2
  dmaWrite .tgt (mixByte c r.1 q.1) q.2

/-- `do_swap()` (R212): both reads before both writes, source first. -/
def doSwap (s : State) : Out :=
  let r := dmaRead .src s
  let q := dmaRead .tgt r.2
  andThen (dmaWrite .src q.1 q.2) (dmaWrite .tgt r.1)

/-- `do_fill()` (R213): the constant is the low byte of the latched source address; nothing is read. -/
def doFill (s : State) : Out := dmaWrite .tgt (s.cur.src.addr.extractLsb' 0 8) s

/-- `do_unknown(v)` (R214): logged, no access. -/
def doUnknown (v : BitVec 2) (s : State) : Out := .next (s.pushLog (.unknownDmaCommand v))

/-- The common tail of `execute()` (R188): both cursors advance, `remaining` decreases, completion is tested. -/
def executeTail (c : CmdBits) (s : State) : State :=
  let t := (s.setCursors (advance s.srcCur s.cur.src.step) (advance s.tgtCur s.cur.tgt.step)).setRemaining (s.remaining - 1)
  if t.remaining = 0 then complete c.chain t else t

/-- One Execute step: a byte operation, then the tail (R188). -/
def executeWith (c : CmdBits) (body : State → Out) (s : State) : Out :=
  andThen (body s) (fun t => .next (executeTail c t))

/-- One Execute step of an operation (R188, R210 to R214). -/
def executeOp (op : Op) (c : CmdBits) (s : State) : Out :=
  match op with
  | .copy => executeWith c doCopy s
  | .mix => executeWith c (doMix c) s
  | .swap => executeWith c doSwap s
  | .fill => executeWith c doFill s
  | .unknown v => executeWith c (doUnknown v) s

/-- `execute()` (R188): the operation the latched command byte names. -/
def executeStep (s : State) : Out :=
  executeOp (decodeOp s.params.implementedOps s.cur.command) (cmdBitsOf s.cur.command) s

/-! ### The step state machine -/

/-- `step()` (R185, R186). -/
def engineStep (s : State) : Out :=
  if s.busy then
    if s.params.dmaMaxIterations ≤ s.iterCount then raiseFatal (.runawayDma s.lp) s
    else
      match s.phase with
      | .fetch => .next (fetchDescriptor (s.setIter (s.iterCount + 1)))
      | .execute => executeStep (s.setIter (s.iterCount + 1))
  else .next s

/-- `while busy: step()`, at most `fuel` calls (R182, R190). -/
def drain : Nat → State → Out
  | 0, s => .next s
  | fuel + 1, s => if s.busy then andThen (engineStep s) (drain fuel) else .next s

/-- Enough calls for a drain to end: the calls the ceiling still allows, and the one that raises (R186). -/
def drainFuel (s : State) : Nat := s.params.dmaMaxIterations - s.iterCount + 1

/-- The drain of a prior chain, with its log event (R182, R183). -/
def drainPrior (s : State) : Out :=
  if s.busy then drain (drainFuel s) (s.pushLog .retriggerWhileBusy) else .next s

/-- What `start` writes (R182). -/
def armEngine (listAddr : BitVec 24) (s : State) : State :=
  ((s.setLp (wrapPhys s.params listAddr.toNat)).setFlags true false .fetch).setIter 0

/-- The run of a chain just armed: to its end under DRAIN, not at all under INTERLEAVED (R182, R190). -/
def runArmed (s : State) : Out :=
  match s.params.dmaPolicy with
  | .drain => drain (drainFuel s) s
  | .interleaved _ => .next s

/-- `start(list_address)` (R182); refused in EXTENDED (R106). -/
def startDma (listAddr : BitVec 24) (s : State) : Out :=
  match s.params.variant with
  | .extended _ => .refused .extendedDmaStart
  | .base => andThen (drainPrior s) (fun t => runArmed (armEngine listAddr t))

/-! ### What reaches the engine from outside -/

/-- `DmaRegWrite(i, v)` (R180, R181): register 0 is the trigger. -/
def dmaRegWrite (i : BitVec 2) (v : Byte) (s : State) : Out :=
  let t := dmaRegStore i v s
  if i = 0 then startDma (listAddress t) t else .next t

/-- `IoWrite(a, v)` issued by the CPU (R63, R64). -/
def ioWriteCpu (a : CpuAddr) (v : Byte) (s : State) : Out :=
  match regIndex s.params a with
  | some i => dmaRegWrite i v (s.pushIo (.write a v))
  | none => .next (ioWriteOther a v (s.pushIo (.write a v)))

/-- `MemRead(addr, 1)`, its byte returned to the CPU (R64). -/
def memRead (addr : CpuAddr) (s : State) : Out :=
  match translate s.tt addr .read with
  | .physical pa => .next (s.setResult (physRead s pa))
  | .io a => .next ((ioRead a s).2.setResult (ioRead a s).1)
  | .inconsistent a => raiseFatal (.configInconsistency a) s

/-- `MemWrite(addr, 1, v)` (R64). -/
def memWrite (addr : CpuAddr) (v : Byte) (s : State) : Out :=
  match translate s.tt addr .write with
  | .physical pa => .next (memStore pa v s)
  | .io a => ioWriteCpu a v s
  | .inconsistent a => raiseFatal (.configInconsistency a) s

end Sys2Proof.Machine
end

