-- ==== Sys2Proof/Machine/DmaCommands.lean ====
section
/-! DEFINITION. The meanings of the DMA commands (format CMD, R210 to R214), one Execute step each, and of the two
formats the fetch reads (DESC11, R101, R187; ADDR3, R105, R106; assumption 15). -/

namespace Sys2Proof.Machine

/-- COPY (R210, R188). -/
def execCopy (c : CmdBits) (s : State) : Out := whenRunning s (executeOp .copy c)

/-- MIX (R211, R188). -/
def execMix (c : CmdBits) (s : State) : Out := whenRunning s (executeOp .mix c)

/-- SWAP (R212, R188). -/
def execSwap (c : CmdBits) (s : State) : Out := whenRunning s (executeOp .swap c)

/-- FILL (R213, R188). -/
def execFill (c : CmdBits) (s : State) : Out := whenRunning s (executeOp .fill c)

/-- UNKNOWN (R214, R188). -/
def execUnknown (opc : BitVec 2) (c : CmdBits) (s : State) : Out := whenRunning s (executeOp (.unknown opc) c)

/-- DESC11 (R101, R187): the fetch's latch of the descriptor at `lp`. -/
def execDesc11 (d : Desc11) (s : State) : Out := whenRunning s (fun t => .next (latchDescriptor d t))

/-- ADDR3 (R105, R106, R187): the fetch's latch of one side. -/
def execAddr3 (side : SideName) (a : Addr3) (s : State) : Out := whenRunning s (fun t => .next (latchSide side a t))

end Sys2Proof.Machine
end

