-- ==== Sys2Proof/Machine/DmaRegs.lean ====
section
/-! DEFINITION. The meanings of the DMA register operations (format REG, R110, R180, R181, R184). -/

namespace Sys2Proof.Machine

/-- DmaRegWrite.LIST_LO: the trigger (R181). -/
def execDmaRegWriteListLo (v : Byte) (s : State) : Out := whenRunning s (dmaRegWrite 0 v)

/-- DmaRegRead.LIST_LO (R184). -/
def execDmaRegReadListLo (s : State) : Out := whenRunning s (fun t => .next (t.setResult (dmaRegRead 0 t)))

/-- DmaRegWrite.LIST_HI (R180). -/
def execDmaRegWriteListHi (v : Byte) (s : State) : Out := whenRunning s (dmaRegWrite 1 v)

/-- DmaRegRead.LIST_HI (R184). -/
def execDmaRegReadListHi (s : State) : Out := whenRunning s (fun t => .next (t.setResult (dmaRegRead 1 t)))

/-- DmaRegWrite.LIST_BANK (R180). -/
def execDmaRegWriteListBank (v : Byte) (s : State) : Out := whenRunning s (dmaRegWrite 2 v)

/-- DmaRegRead.LIST_BANK (R184). -/
def execDmaRegReadListBank (s : State) : Out := whenRunning s (fun t => .next (t.setResult (dmaRegRead 2 t)))

/-- DmaRegWrite.STATUS: ignored (R180). -/
def execDmaRegWriteStatus (v : Byte) (s : State) : Out := whenRunning s (dmaRegWrite 3 v)

/-- DmaRegRead.STATUS: `status()` (R184). -/
def execDmaRegReadStatus (s : State) : Out := whenRunning s (fun t => .next (t.setResult (dmaRegRead 3 t)))

end Sys2Proof.Machine
end

