-- ==== Sys2Proof/Machine/Ports.lean ====
section
/-! DEFINITION. The meanings of the port operations (format PORT, R113): the BankConfig ports (R153 to R156), the CPU
accesses (R157 to R159), DmaStep (R185) and Reset (R270). -/

namespace Sys2Proof.Machine

/-- SetMap (R153). -/
def execSetMap (mask : Byte) (offLo offHi mbLo mbHi : Nat) (s : State) : Out :=
  whenRunning s (fun t => .next (setMap mask offLo offHi mbLo mbHi t))

/-- WritePortDdr (R154). -/
def execWritePortDdr (v : Byte) (s : State) : Out := whenRunning s (fun t => .next (writePortDdr v t))

/-- WritePortData (R155). -/
def execWritePortData (v : Byte) (s : State) : Out := whenRunning s (fun t => .next (writePortData v t))

/-- WriteOverlay (R156). -/
def execWriteOverlay (v : Byte) (s : State) : Out := whenRunning s (fun t => .next (writeOverlay v t))

/-- CpuRead (R157). -/
def execCpuRead (addr : CpuAddr) (s : State) : Out := whenRunning s (memRead addr)

/-- CpuWrite (R158). -/
def execCpuWrite (addr : CpuAddr) (v : Byte) (s : State) : Out := whenRunning s (memWrite addr v)

/-- CpuFetch (R159): a read through the same table. -/
def execCpuFetch (addr : CpuAddr) (s : State) : Out := whenRunning s (memRead addr)

/-- DmaStep (R185). -/
def execDmaStep (s : State) : Out := whenRunning s engineStep

/-- Reset (R270): the only operation that runs in the halted state (R249). -/
def execReset (s : State) : Out := .next (resetOp s)

end Sys2Proof.Machine
end

