-- ==== Sys2Proof/Machine/Dispatch.lean ====
section
/-! DEFINITION. The meaning of every instruction: one arm per row of spec/opcode_table.json. -/

namespace Sys2Proof.Machine

def exec (i : Instr) (s : State) : Host.Outcome State Fault Refusal :=
  match i with
  | .copy c => Sys2Proof.Machine.execCopy c s
  | .mix c => Sys2Proof.Machine.execMix c s
  | .swap c => Sys2Proof.Machine.execSwap c s
  | .fill c => Sys2Proof.Machine.execFill c s
  | .unknown opc c => Sys2Proof.Machine.execUnknown opc c s
  | .desc11 d => Sys2Proof.Machine.execDesc11 d s
  | .addr3 side a => Sys2Proof.Machine.execAddr3 side a s
  | .dmaRegWriteListLo v => Sys2Proof.Machine.execDmaRegWriteListLo v s
  | .dmaRegReadListLo => Sys2Proof.Machine.execDmaRegReadListLo s
  | .dmaRegWriteListHi v => Sys2Proof.Machine.execDmaRegWriteListHi v s
  | .dmaRegReadListHi => Sys2Proof.Machine.execDmaRegReadListHi s
  | .dmaRegWriteListBank v => Sys2Proof.Machine.execDmaRegWriteListBank v s
  | .dmaRegReadListBank => Sys2Proof.Machine.execDmaRegReadListBank s
  | .dmaRegWriteStatus v => Sys2Proof.Machine.execDmaRegWriteStatus v s
  | .dmaRegReadStatus => Sys2Proof.Machine.execDmaRegReadStatus s
  | .setMap mask offLo offHi mbLo mbHi => Sys2Proof.Machine.execSetMap mask offLo offHi mbLo mbHi s
  | .writePortDdr v => Sys2Proof.Machine.execWritePortDdr v s
  | .writePortData v => Sys2Proof.Machine.execWritePortData v s
  | .writeOverlay v => Sys2Proof.Machine.execWriteOverlay v s
  | .cpuRead addr => Sys2Proof.Machine.execCpuRead addr s
  | .cpuWrite addr v => Sys2Proof.Machine.execCpuWrite addr v s
  | .cpuFetch addr => Sys2Proof.Machine.execCpuFetch addr s
  | .dmaStep => Sys2Proof.Machine.execDmaStep s
  | .reset => Sys2Proof.Machine.execReset s

end Sys2Proof.Machine
end

