-- ==== Sys2Proof/Machine/Loop.lean ====
section
/-! DEFINITION. One turn of the driving loop (R9, R75, R190; assumption 13), and how an instruction is placed where the
next turn takes it (assumptions 12, 16, 17). -/

namespace Sys2Proof.Machine

/-- One turn of the driving loop: a call of the engine when it is the engine's turn, else the next operation an agent
issues, else nothing (an idle block). In the halted state only a Reset is left (R249). -/
def loopTurn (s : State) : Out :=
  if engineTurn s then exec .dmaStep (s.setSchedule s.inputs (s.credit - 1))
  else
    match s.inputs with
    | i :: rest => exec i (s.setSchedule rest (creditAfter s.params i s.draws)).bumpDraws
    | [] =>
      match s.halted with
      | none => .next s
      | some f => .fault (.halted f)

/-- The engine ready to move at the next turn: not halted, busy, below the ceiling, with a call left. -/
def readyEngine (phase : Phase) (s : State) : State :=
  (((s.setHalted none).setFlags true s.chainCont phase).setIter 0).setSchedule s.inputs (max 1 s.credit)

/-- A command byte where the Execute step takes it: latched, with every other descriptor byte 0. -/
def placeCommand (b : Byte) (s : State) : State :=
  (readyEngine .execute (latchDescriptor (desc11OfBytes b 0 0 0 0 0 0 0 0 0 0) s)).setLp s.lp

/-- Bytes stored upward from a physical address, as the host loads them (no region is write-protected here). -/
def storeBytes (p : Params) (pa : Nat) : List Byte → Memory → Memory
  | [], m => m
  | b :: bs, m => storeBytes p (pa + 1) bs (Memory.write m (wrapPhys p pa) b)

/-- A descriptor where the fetch takes it: at `lp`. -/
def placeDescriptor (bytes : List Byte) (s : State) : State :=
  readyEngine .fetch (s.setPhys (storeBytes s.params s.lp bytes s.phys))

/-- An operation where the driving loop takes it: at the head of `inputs`, the engine idle. -/
def placeInput (i : Instr) (s : State) : State :=
  ((s.setHalted none).setFlags false s.chainCont s.phase).setSchedule (i :: s.inputs) s.credit

/-- The state whose next turn runs the instruction of a table row's word. -/
def placeWord (s : State) (nbits w : Nat) : State :=
  match tableFormat nbits with
  | some (.cmd, _) => placeCommand (BitVec.ofNat 8 w) s
  | some (.desc11, n) => placeDescriptor (bytesOfNat n w) s
  | some (.addr3 _, _) | some (.regWrite, _) | some (.regRead, _) | some (.port, _) =>
    match decodeTableWord nbits w with
    | some i => placeInput i s
    | none => s
  | none => s

end Sys2Proof.Machine
end

