-- ==== Sys2Proof/Machine/Step.lean ====
section
/-! DEFINITION. The machine's step, one turn of the driving loop, and the placing of an instruction for the next step. -/

namespace Sys2Proof.Machine

/-- One step of the machine: one turn of the driving loop (R9, R190; assumption 13). -/
def step (s : State) : Host.Outcome State Fault Refusal := loopTurn s

/-- `s` with a table row's instruction placed where `step` takes its next one (assumptions 12, 16, 17). -/
def State.withFetchWord (s : State) (nbits w : Nat) : State := placeWord s nbits w

end Sys2Proof.Machine
end

