-- ==== Sys2Proof/Safety.lean ====
section
/-! DEFINITION. The terms claims are stated in: runs of the engine, the end of a chain (R280), and the invariant of the
machine. -/

namespace Sys2Proof.Machine

/-- `n` calls of DmaStep, stopped by a fatal condition (R185, R248). -/
def engineCalls : Nat → State → Out
  | 0, s => .next s
  | n + 1, s => andThen (exec .dmaStep s) (engineCalls n)

/-- The outcome with a change made to its next state. -/
def mapNext (f : State → State) (o : Out) : Out :=
  match o with
  | .next s => .next (f s)
  | .fault r => .fault r
  | .refused r => .refused r

/-- The amount a step adds to a cursor, mod 2^20 (R106). -/
def stepAmount (t : Step) : Addr20 :=
  match t with
  | .down => -1
  | .hold => 0
  | .up => 1

/-- The cursor after `k` byte operations: `(start + k * step) mod 2^20` (R215). -/
def cursorAfter (start : Addr20) (t : Step) (k : Nat) : Addr20 := start + BitVec.ofNat 20 k * stepAmount t

/-- The physical address a memory side uses at its `k`-th byte operation from now, reduced (R65, R215). -/
def sideAddr (s : State) (n : SideName) (k : Nat) : Nat :=
  wrapPhys s.params (physAddrOf (sideOf s n) (cursorAfter (cursorOf s n) (sideOf s n).step k))

/-- The reduced physical address of a side's cursor, for a memory side (R65). -/
def cursorAddr (s : State) (n : SideName) : Nat := wrapPhys s.params (physAddrOf (sideOf s n) (cursorOf s n))

/-- The state after one byte operation that leaves PhysicalStore as `m`: cursors advanced, `remaining` decreased, and at
0 the chain goes on at the next fetch or ends (R188, R189). -/
def afterByte (chained : Bool) (m : Memory) (s : State) : State :=
  { s with
    phys := m
    srcCur := s.srcCur + stepAmount s.cur.src.step
    tgtCur := s.tgtCur + stepAmount s.cur.tgt.step
    remaining := s.remaining - 1
    busy := if s.remaining = 1 ∧ chained = false then false else s.busy
    chainCont := if s.remaining = 1 then chained else s.chainCont
    phase := if s.remaining = 1 ∧ chained = true then .fetch else s.phase }

/-! ### What one access does, by the address it reaches -/

/-- BankConfig with the byte of one port replaced (R154 to R156). -/
def withPortByte (b : BankPort) (v : Byte) (c : BankConfig) : BankConfig :=
  match b with
  | .ddr => { c with cpuPortDdr := v }
  | .data => { c with cpuPortData := v }
  | .overlay => { c with romOverlayBits := v }

/-- `s` after a write of `v` to an address with the binding `b`: the bound port holds `v` and the table is rebuilt
(R63(d), R278, D12); nothing where nothing is bound. -/
def reachPort (b : Option BankPort) (v : Byte) (s : State) : State :=
  match b with
  | some b => { s with cfg := withPortByte b v s.cfg, tt := recompute s.params (withPortByte b v s.cfg) }
  | none => s

/-- An IoRead of `a` answers `v` and leaves `t` (R63): a DMA register's byte; the fallback byte and a log event; or any
byte, one draw. -/
def ioReads (s : State) (a : CpuAddr) (v : Byte) (t : State) : Prop :=
  (∃ i, regIndex s.params a = some i ∧ v = dmaRegRead i s ∧ t = { s with ioTrace := .read a v :: s.ioTrace })
  ∨ (regIndex s.params a = none ∧ unimplementedAt s.params a = true ∧ v = s.params.ioFallback
      ∧ t = { s with ioTrace := .read a v :: s.ioTrace, log := .unimplementedIo a :: s.log })
  ∨ (regIndex s.params a = none ∧ unimplementedAt s.params a = false
      ∧ t = { s with ioTrace := .read a v :: s.ioTrace, draws := s.draws + 1 })

/-- An IoWrite of `v` to `a` by the engine leaves `t` (R63, R180, R243, R278): DMA register 1 or 2 stored, register 3
ignored, a log event, or the port bound there, if one is. Register 0 is not among them (R191). -/
def ioWrites (s : State) (a : CpuAddr) (v : Byte) (t : State) : Prop :=
  ∃ u : State, u = { s with ioTrace := .write a v :: s.ioTrace }
    ∧ ((regIndex s.params a = some 1 ∧ t = { u with dreg1 := v })
      ∨ (regIndex s.params a = some 2 ∧ t = { u with dreg2 := v })
      ∨ (regIndex s.params a = some 3 ∧ t = u)
      ∨ (regIndex s.params a = none ∧ unimplementedAt s.params a = true
          ∧ t = { u with log := .unimplementedIo a :: s.log })
      ∨ (regIndex s.params a = none ∧ unimplementedAt s.params a = false
          ∧ t = reachPort (bindingAt s.params a) v u))

/-- PhysicalStore becomes `m` when `v` is written to the reduced address `pa` (R62). -/
def byteStored (s : State) (pa : Nat) (v : Byte) (m : Memory) : Prop :=
  ∀ x, Memory.read m x = if x = pa ∧ writableAt s.params pa = true then some v else Memory.read s.phys x

/-- `DmaRead` of a side answers `v` and leaves `t` (R65). -/
def sideReads (s : State) (n : SideName) (v : Byte) (t : State) : Prop :=
  ((sideOf s n).io = true ∧ ∃ a : CpuAddr, a.toNat = 0xD000 + (cursorOf s n).toNat % 4096 ∧ ioReads s a v t)
  ∨ ((sideOf s n).io = false ∧ v = physRead s (cursorAddr s n) ∧ t = s)

/-- `DmaWrite` of `v` to a side leaves `t` (R65). -/
def sideWrites (s : State) (n : SideName) (v : Byte) (t : State) : Prop :=
  ((sideOf s n).io = true ∧ ∃ a : CpuAddr, a.toNat = 0xD000 + (cursorOf s n).toNat % 4096 ∧ ioWrites s a v t)
  ∨ ((sideOf s n).io = false ∧ ∃ m, byteStored s (cursorAddr s n) v m
      ∧ t = reachPort (memBindingAt s.params (cursorAddr s n)) v { s with phys := m })

/-- The accesses of one Execute step of a command, in their order (R210 to R213, D28). -/
def stepAccesses (op : Op) (c : CmdBits) (s t : State) : Prop :=
  match op with
  | .copy => ∃ v u, sideReads s .src v u ∧ sideWrites u .tgt v t
  | .mix => ∃ v w u x, sideReads s .src v u ∧ sideReads u .tgt w x ∧ sideWrites x .tgt (mixByte c v w) t
  | .swap => ∃ v w u x y, sideReads s .src v u ∧ sideReads u .tgt w x ∧ sideWrites x .src w y ∧ sideWrites y .tgt v t
  | .fill => sideWrites s .tgt (s.cur.src.addr.extractLsb' 0 8) t
  | .unknown v => t = { s with log := .unknownDmaCommand v :: s.log }

/-- The CMD instruction of an operation (R104). -/
def cmdInstr (op : Op) (c : CmdBits) : Instr :=
  match op with
  | .copy => .copy c
  | .mix => .mix c
  | .swap => .swap c
  | .fill => .fill c
  | .unknown v => .unknown v c

/-- The sides a command writes (R210 to R213). -/
def writesSide (op : Op) (n : SideName) : Prop :=
  match op with
  | .copy | .mix | .fill => n = .tgt
  | .swap => True
  | .unknown _ => False

/-- What no Execute step changes, whatever its sides: the latched descriptor, `lp`, the counter of calls, the latch, DMA
register 0, what the CPU was told and what waits to be issued (R187, R188). -/
structure ExecuteFrame (s t : State) : Prop where
  params : t.params = s.params
  dreg0 : t.dreg0 = s.dreg0
  lp : t.lp = s.lp
  cur : t.cur = s.cur
  iterCount : t.iterCount = s.iterCount
  halted : t.halted = s.halted
  result : t.result = s.result
  inputs : t.inputs = s.inputs
  credit : t.credit = s.credit

/-- Does an engine write to this side reach DMA register 0 (R191)? -/
def hitsTrigger (s : State) (n : SideName) : Prop :=
  (sideOf s n).io = true ∧ regIndex s.params (ioAddrOf (cursorOf s n)) = some 0

/-- A chain has ended (R280). -/
def chainEnded (s : State) : Prop := s.busy = false ∧ s.halted = none

/-- The engine is ready to execute the bytes left of a descriptor whose command is `op` with CMD bits `c`, and the
ceiling allows all of them (R186, R188). -/
structure ReadyToRun (s : State) (op : Op) : Prop where
  running : s.halted = none
  busy : s.busy = true
  execute : s.phase = .execute
  command : decodeOp s.params.implementedOps s.cur.command = op
  bytesLeft : 1 ≤ s.remaining
  allowed : s.iterCount + s.remaining ≤ s.params.dmaMaxIterations

/-- What the run of the bytes left of one descriptor leaves in every field but PhysicalStore (R188, R189, R215).
BankConfig and the table are among them on a platform that binds no memory address (D12). -/
structure RanDescriptor (s t : State) : Prop where
  params : t.params = s.params
  cfg : s.params.memBindings = [] → t.cfg = s.cfg
  tt : s.params.memBindings = [] → t.tt = s.tt
  dreg0 : t.dreg0 = s.dreg0
  dreg1 : t.dreg1 = s.dreg1
  dreg2 : t.dreg2 = s.dreg2
  busy : t.busy = (cmdBitsOf s.cur.command).chain
  chainCont : t.chainCont = (cmdBitsOf s.cur.command).chain
  phase : (cmdBitsOf s.cur.command).chain = true → t.phase = .fetch
  lp : t.lp = s.lp
  cur : t.cur = s.cur
  remaining : t.remaining = 0
  srcCur : t.srcCur = cursorAfter s.srcCur s.cur.src.step s.remaining
  tgtCur : t.tgtCur = cursorAfter s.tgtCur s.cur.tgt.step s.remaining
  iterCount : t.iterCount = s.iterCount + s.remaining
  halted : t.halted = none
  log : t.log = s.log
  ioTrace : t.ioTrace = s.ioTrace
  draws : t.draws = s.draws
  result : t.result = s.result
  inputs : t.inputs = s.inputs
  credit : t.credit = s.credit

/-- What a transfer of `n` byte operations between memory sides, at the bytes `A k` and `B k`, leaves in PhysicalStore
(R215), for each command; `before` and `after` are the states around it. -/
structure Transferred (op : Op) (c : CmdBits) (fill : Byte) (n : Nat) (A B : Nat → Nat) (before after : State) :
    Prop where
  filled : op = .fill → ∀ k, k < n → writableAt before.params (B k) = true → physRead after (B k) = fill
  copied : op = .copy → (∀ j k, j < n → k < n → A j ≠ B k) →
    ∀ k, k < n → writableAt before.params (B k) = true → (∀ j, k < j → j < n → B j ≠ B k) →
      physRead after (B k) = physRead before (A k)
  mixed : op = .mix → (∀ j k, j < n → k < n → A j ≠ B k) → (∀ j k, j < k → k < n → B j ≠ B k) →
    ∀ k, k < n → writableAt before.params (B k) = true →
      physRead after (B k) = mixByte c (physRead before (A k)) (physRead before (B k))
  swapped : op = .swap → (∀ j k, j < n → k < n → A j ≠ B k) → (∀ j k, j < k → k < n → B j ≠ B k) →
    (∀ j k, j < k → k < n → A j ≠ A k) →
    ∀ k, k < n →
      (writableAt before.params (B k) = true → physRead after (B k) = physRead before (A k))
      ∧ (writableAt before.params (A k) = true → physRead after (A k) = physRead before (B k))
  /-- Every byte but the writable ones of a side the command writes. -/
  others : ∀ a, (∀ k, k < n →
      (writesSide op .tgt → B k = wrapPhys before.params a → writableAt before.params (B k) = false)
      ∧ (writesSide op .src → A k = wrapPhys before.params a → writableAt before.params (A k) = false)) →
    physRead after a = physRead before a

/-- Operations the external agents issue: every format REG and PORT operation (R9). -/
def isAgentOperation (i : Instr) : Bool :=
  match i with
  | .copy _ | .mix _ | .swap _ | .fill _ | .unknown _ _ | .desc11 _ | .addr3 _ _ => false
  | .dmaRegWriteListLo _ | .dmaRegWriteListHi _ | .dmaRegWriteListBank _ | .dmaRegWriteStatus _ => true
  | .dmaRegReadListLo | .dmaRegReadListHi | .dmaRegReadListBank | .dmaRegReadStatus => true
  | .setMap _ _ _ _ _ | .writePortDdr _ | .writePortData _ | .writeOverlay _ => true
  | .cpuRead _ | .cpuWrite _ _ | .cpuFetch _ | .dmaStep | .reset => true

/-- The invariant of the machine. -/
structure State.Inv (s : State) : Prop where
  /-- The table is `recompute(cfg)` (R28). -/
  table : s.tt = recompute s.params s.cfg
  /-- PhysicalStore is in canonical form. -/
  physForm : Memory.wf s.phys = true
  /-- PhysicalStore holds addresses of `PA_BITS` bits only (R29). -/
  physRange : Memory.within s.phys s.params.physSize = true
  /-- The megabyte selectors have `MB_BITS` bits (R23). -/
  mbLow : s.cfg.mapMegabyteLow < 2 ^ s.params.mbBits
  mbHigh : s.cfg.mapMegabyteHigh < 2 ^ s.params.mbBits
  mbSrc : s.cur.src.mb < 2 ^ s.params.mbBits
  mbTgt : s.cur.tgt.mb < 2 ^ s.params.mbBits
  /-- `lp` is a physical address (R34). -/
  lpRange : s.lp < s.params.physSize
  /-- `remaining` is 0 to 65536 (R36). -/
  remainingRange : s.remaining ≤ 65536
  /-- On entry to an Execute step `remaining` is at least 1 (R188). -/
  bytesLeft : s.busy = true → s.phase = .execute → 1 ≤ s.remaining
  /-- `chain_cont` is true only while the engine waits to fetch a chained descriptor (R33). -/
  chainCont : s.chainCont = true → s.busy = true ∧ s.phase = .fetch
  /-- At most `DMA_MAX_ITERATIONS` calls are performed (R186). -/
  iterRange : s.iterCount ≤ s.params.dmaMaxIterations
  /-- Only operations of the external agents wait (R9). -/
  inputsIssued : s.inputs.all isAgentOperation = true

end Sys2Proof.Machine
end

