-- ==== Sys2Proof/Certificates/Slice0/Obligations.lean ====
section
/-! DEFINITION. The statements for the provers, from the numbered rules of spec/. -/

open Sys2Proof Sys2Proof.Machine

/-! ### The address translator -/

/-- R140: `cp`, bit by bit, and the rule's five examples. -/
def Obligations.CpuPortValue : Prop :=
  (∀ c : BankConfig,
    (cpuPort c).toNat = ((c.cpuPortData ||| ~~~c.cpuPortDdr) &&& 7).toNat
    ∧ (cpuPort c).toNat ≤ 7
    ∧ ∀ i : Nat, i < 3 →
        (cpuPort c).getLsbD i = (!c.cpuPortDdr.getLsbD i || c.cpuPortData.getLsbD i))
  ∧ cpuPort { resetBank with cpuPortDdr := 0x00, cpuPortData := 0x00 } = 7
  ∧ cpuPort { resetBank with cpuPortDdr := 0x07, cpuPortData := 0x05 } = 5
  ∧ cpuPort { resetBank with cpuPortDdr := 0x03, cpuPortData := 0x00 } = 4
  ∧ cpuPort { resetBank with cpuPortDdr := 0xFF, cpuPortData := 0x02 } = 2
  ∧ cpuPort { resetBank with cpuPortDdr := 0x2F, cpuPortData := 0x37 } = 7

/-- R142, R160(a): each region's entry is given by exactly the first of the seven cases that applies.
(The spec's own decisions D8, D9, D10, log entry 21.) -/
def Obligations.RecomputePriority : Prop :=
  ∀ (p : Params) (c : BankConfig) (n : Region),
    (overlayClaims p c n = true → (recompute p c).get n = entryOverlay p n)
    ∧ (overlayClaims p c n = false → mapClaims c n = true → (recompute p c).get n = entryMapped p c n)
    ∧ (overlayClaims p c n = false → mapClaims c n = false →
        (n.val ≤ 7 ∨ n = 8 ∨ n = 9 ∨ n = 12 → (recompute p c).get n = directEntry)
        ∧ (n = 10 ∨ n = 11 → (recompute p c).get n = entryPortA p c)
        ∧ (n = 13 → (recompute p c).get n = entryPortD p c)
        ∧ (n = 14 ∨ n = 15 → (recompute p c).get n = entryPortE p c))

/-- R141, R114, R143: the four overlay windows by number, each with its mask and image; a claimed window's CPU address
`W + k` reads `P + k`, and a write goes to the same byte under DISCARD and to the direct RAM under RAM_UNDER, whatever
`map_mask` says; no overlay claims any other region. (The spec's own decisions D3, D6, D7, log entry 21.) -/
def Obligations.OverlayAccess : Prop :=
  (∀ (p : Params) (c : BankConfig) (addr : CpuAddr) (W : Nat) (mask : Byte) (P : Addr20),
    (0x8000 ≤ addr.toNat ∧ addr.toNat < 0xA000 ∧ W = 0x8000 ∧ mask = p.ov8Mask ∧ P = p.ov8Pa)
    ∨ (0xA000 ≤ addr.toNat ∧ addr.toNat < 0xC000 ∧ W = 0xA000 ∧ mask = p.ovAMask ∧ P = p.ovAPa)
    ∨ (0xC000 ≤ addr.toNat ∧ addr.toNat < 0xD000 ∧ W = 0xC000 ∧ mask = p.ovCMask ∧ P = p.ovCPa)
    ∨ (0xE000 ≤ addr.toNat ∧ W = 0xE000 ∧ mask = p.ovEMask ∧ P = p.ovEPa) →
    (overlayClaims p c (regionOf addr) = true ↔ c.romOverlayBits &&& mask ≠ 0)
    ∧ (c.romOverlayBits &&& mask ≠ 0 →
      translate (recompute p c) addr .read = .physical ((P.toNat + (addr.toNat - W)) % 2 ^ 20)
      ∧ (p.overlayWrite = .discard →
          translate (recompute p c) addr .write = .physical ((P.toNat + (addr.toNat - W)) % 2 ^ 20))
      ∧ (p.overlayWrite = .ramUnder → translate (recompute p c) addr .write = .physical addr.toNat)))
  ∧ (∀ (p : Params) (c : BankConfig) (addr : CpuAddr),
    addr.toNat < 0x8000 ∨ (0xD000 ≤ addr.toNat ∧ addr.toNat < 0xE000) → overlayClaims p c (regionOf addr) = false)

/-- R144: a mapped region that no overlay claims reads and writes through its half's offset and selector; it is never
I/O, and region $D is plain memory whatever the CPU port is; a bit covers two regions; a mapped write that lands on a
region that is not writable is discarded. (The spec's own decisions D3, that the sum wraps inside the 1MB slice, and D4,
the discard, log entry 21; that a selector is read mod 2^MB_BITS is the model's, log entry 24.) -/
def Obligations.MappedAccess : Prop :=
  (∀ (p : Params) (c : BankConfig) (addr : CpuAddr) (i : Intent),
    overlayClaims p c (regionOf addr) = false → mapClaims c (regionOf addr) = true →
    (addr.toNat < 0x8000 → translate (recompute p c) addr i
        = .physical (c.mapMegabyteLow % 2 ^ p.mbBits * 2 ^ 20 + (c.mapOffsetLow.toNat + addr.toNat) % 2 ^ 20))
    ∧ (0x8000 ≤ addr.toNat → translate (recompute p c) addr i
        = .physical (c.mapMegabyteHigh % 2 ^ p.mbBits * 2 ^ 20 + (c.mapOffsetHigh.toNat + addr.toNat) % 2 ^ 20))
    ∧ ((recompute p c).get (regionOf addr)).io = false)
  ∧ (∀ (c : BankConfig) (n m : Region), n.val / 2 = m.val / 2 → mapClaims c n = mapClaims c m
      ∧ mapClaims c n = c.mapMask.getLsbD (n.val / 2))
  ∧ (∀ (s : State) (addr : CpuAddr) (v : Byte) (pa : Nat), s.halted = none → s.tt = recompute s.params s.cfg →
    overlayClaims s.params s.cfg (regionOf addr) = false → mapClaims s.cfg (regionOf addr) = true →
    translate s.tt addr .write = .physical pa → writableAt s.params (wrapPhys s.params pa) = false →
    exec (.cpuWrite addr v) s = .next s)

/-- R145: regions $0 to $7 are direct when not mapped, and the CPU port and the overlay bits never affect them.
(Regions $8, $9 and $C are in PortWindowAccess.) -/
def Obligations.DirectAccess : Prop :=
  (∀ (p : Params) (c : BankConfig) (addr : CpuAddr) (i : Intent),
    mapClaims c (regionOf addr) = false → addr.toNat < 0x8000 →
    (recompute p c).get (regionOf addr) = ⟨0, 0, 0, 0, false⟩
    ∧ translate (recompute p c) addr i = .physical addr.toNat)
  ∧ (∀ (p : Params) (c : BankConfig) (n : Region) (ddr data ov : Byte), n.val ≤ 7 →
      overlayClaims p c n = false
      ∧ (recompute p { c with cpuPortDdr := ddr, cpuPortData := data, romOverlayBits := ov }).get n
          = (recompute p c).get n)

/-- R146, R147, R148, R149: regions $8 to $F where nothing claims them: $8, $9 and $C direct, and the three CPU-port
windows, read and write. (The spec's own decisions D8, D9, D10, log entry 21.) -/
def Obligations.PortWindowAccess : Prop :=
  ∀ (p : Params) (c : BankConfig) (addr : CpuAddr),
    overlayClaims p c (regionOf addr) = false → mapClaims c (regionOf addr) = false →
    ((0x8000 ≤ addr.toNat ∧ addr.toNat < 0xA000) ∨ (0xC000 ≤ addr.toNat ∧ addr.toNat < 0xD000) →
      (recompute p c).get (regionOf addr) = directEntry
      ∧ ∀ i, translate (recompute p c) addr i = .physical addr.toNat)
    ∧ (0xA000 ≤ addr.toNat → addr.toNat < 0xC000 →
      translate (recompute p c) addr .write = .physical addr.toNat
      ∧ ((portRow p c).a = .basic → translate (recompute p c) addr .read
          = .physical (p.romBasicPa + (addr.setWidth 20 - 0x0A000)).toNat)
      ∧ ((portRow p c).a = .ram → translate (recompute p c) addr .read = .physical addr.toNat))
    ∧ (0xD000 ≤ addr.toNat → addr.toNat < 0xE000 →
      ((portRow p c).d = .io →
        translate (recompute p c) addr .read = .io addr ∧ translate (recompute p c) addr .write = .io addr)
      ∧ ((portRow p c).d = .chargen →
        translate (recompute p c) addr .read = .physical (p.romChargenPa + (addr.setWidth 20 - 0x0D000)).toNat
        ∧ translate (recompute p c) addr .write = .physical addr.toNat)
      ∧ ((portRow p c).d = .ram → translate (recompute p c) addr .read = .physical addr.toNat
        ∧ translate (recompute p c) addr .write = .physical addr.toNat))
    ∧ (0xE000 ≤ addr.toNat →
      translate (recompute p c) addr .write = .physical addr.toNat
      ∧ ((portRow p c).e = .kernal → translate (recompute p c) addr .read
          = .physical (p.romKernalPa + (addr.setWidth 20 - 0x0E000)).toNat)
      ∧ ((portRow p c).e = .ram → translate (recompute p c) addr .read = .physical addr.toNat))

/-- R150: the eight rows of the document's truth table, by the value of `cp`.
(The spec's own decisions D9, log entry 21.) -/
def Obligations.BasePortRows : Prop :=
  ∀ (c : BankConfig),
    portRow profileP0 c =
      match (cpuPort c).toNat with
      | 0 => ⟨.ram, .ram, .ram⟩
      | 1 => ⟨.ram, .chargen, .ram⟩
      | 2 => ⟨.ram, .ram, .kernal⟩
      | 3 => ⟨.basic, .chargen, .kernal⟩
      | 4 => ⟨.ram, .ram, .ram⟩
      | 5 => ⟨.ram, .io, .ram⟩
      | 6 => ⟨.ram, .io, .kernal⟩
      | _ => ⟨.basic, .io, .kernal⟩

/-- R151, R152: everything `translate` answers, and the two examples of R151; in BASE the address
has 20 bits. (The spec's own decisions D3, log entry 21.) -/
def Obligations.TranslateAnswers : Prop :=
  (∀ (tt : Vector Entry 16) (addr : CpuAddr) (i : Intent), ∃ n : Region, n.val = addr.toNat / 4096
    ∧ ((tt.get n).io = true → n = 13 → translate tt addr i = .io addr)
    ∧ ((tt.get n).io = true → n ≠ 13 → translate tt addr i = .inconsistent addr)
    ∧ ((tt.get n).io = false →
        (i = .read → translate tt addr i
          = .physical ((tt.get n).rm * 2 ^ 20 + ((tt.get n).ro.toNat + addr.toNat) % 2 ^ 20))
        ∧ (i = .write → translate tt addr i
          = .physical ((tt.get n).wm * 2 ^ 20 + ((tt.get n).wo.toNat + addr.toNat) % 2 ^ 20))))
  ∧ (∀ tt : Vector Entry 16, (tt.get 2).io = false → (tt.get 2).rm = 0 → (tt.get 2).ro = 0x10000 →
      translate tt 0x2345 .read = .physical 0x12345)
  ∧ (∀ tt : Vector Entry 16, (tt.get 0).io = false → (tt.get 0).rm = 0 → (tt.get 0).ro = 0xFFF00 →
      translate tt 0x0200 .read = .physical 0x00100)
  ∧ (∀ (p : Params) (c : BankConfig) (addr : CpuAddr) (i : Intent) (pa : Nat), p.variant = .base →
      translate (recompute p c) addr i = .physical pa → pa < 2 ^ 20)

/-- R152, R160(d), R148: only region $D can be an I/O region, and it is one exactly when `map_mask` leaves it and the
CPU port's row shows I/O. (The spec's own decisions D10, log entry 21.) -/
def Obligations.OnlyRegionDIsIo : Prop :=
  ∀ (p : Params) (c : BankConfig) (n : Region),
    ((recompute p c).get n).io = true ↔ n = 13 ∧ mapClaims c n = false ∧ (portRow p c).d = .io

/-- R160(e): the read and write sides of an entry differ only under a CPU-port ROM and under an overlay with RAM_UNDER. -/
def Obligations.EntrySidesDiffer : Prop :=
  ∀ (p : Params) (c : BankConfig) (n : Region),
    ((recompute p c).get n).ro ≠ ((recompute p c).get n).wo ∨ ((recompute p c).get n).rm ≠ ((recompute p c).get n).wm →
    (overlayClaims p c n = true ∧ p.overlayWrite = .ramUnder)
    ∨ (overlayClaims p c n = false ∧ mapClaims c n = false
      ∧ (((n = 10 ∨ n = 11) ∧ (portRow p c).a = .basic) ∨ (n = 13 ∧ (portRow p c).d = .chargen)
        ∨ ((n = 14 ∨ n = 15) ∧ (portRow p c).e = .kernal)))

/-- R154, R155, R156, R115(g), R115(h): a bank write that changes neither `cp` nor a bit under one of the four overlay
masks stores its byte and leaves the table as it is. -/
def Obligations.NeutralBankWrites : Prop :=
  ∀ (s : State) (v : Byte), s.halted = none → s.tt = recompute s.params s.cfg →
    ((v ^^^ s.cfg.cpuPortDdr) &&& ~~~s.cfg.cpuPortData &&& 7 = 0 →
      exec (.writePortDdr v) s = .next { s with cfg := { s.cfg with cpuPortDdr := v } })
    ∧ ((v ^^^ s.cfg.cpuPortData) &&& s.cfg.cpuPortDdr &&& 7 = 0 →
      exec (.writePortData v) s = .next { s with cfg := { s.cfg with cpuPortData := v } })
    ∧ ((v ^^^ s.cfg.romOverlayBits)
          &&& (s.params.ov8Mask ||| s.params.ovAMask ||| s.params.ovCMask ||| s.params.ovEMask) = 0 →
      exec (.writeOverlay v) s = .next { s with cfg := { s.cfg with romOverlayBits := v } })

/-- R160(b), pass-through: with nothing mapped and no overlay, a byte written in the low 32KB reads back. "Under unchanged
BankConfig" is that the platform binds no BankConfig port to that byte (log entry 10). -/
def Obligations.LowRamRoundTrip : Prop :=
  ∀ (s : State) (addr : CpuAddr) (v : Byte), s.halted = none → s.tt = recompute s.params s.cfg →
    s.cfg.mapMask = 0 → s.cfg.romOverlayBits = 0 → addr.toNat < 0x8000 → writableAt s.params addr.toNat = true →
    memBindingAt s.params addr.toNat = none →
    ∃ t, exec (.cpuWrite addr v) s = .next t ∧ exec (.cpuRead addr) t = .next { t with result := some v }

/-! ### Port operations -/

/-- R153, R22, R23: SetMap writes its five fields, reduced to their widths, and rebuilds the table; in BASE the megabyte
selectors stay 0. (The spec's own decisions D12, D13, log entry 21; log entry 24.) -/
def Obligations.SetMapEffect : Prop :=
  ∀ (s : State) (mask : Byte) (offLo offHi mbLo mbHi : Nat), s.halted = none →
    ∃ c : BankConfig, c = { s.cfg with
        mapMask := mask
        mapOffsetLow := BitVec.ofNat 20 (offLo % 2 ^ 20)
        mapOffsetHigh := BitVec.ofNat 20 (offHi % 2 ^ 20)
        mapMegabyteLow := mbLo % 2 ^ s.params.mbBits
        mapMegabyteHigh := mbHi % 2 ^ s.params.mbBits }
      ∧ exec (.setMap mask offLo offHi mbLo mbHi) s = .next { s with cfg := c, tt := recompute s.params c }
      ∧ (s.params.variant = .base → c.mapMegabyteLow = 0 ∧ c.mapMegabyteHigh = 0)

/-- R154, R155, R156: each port write stores its byte whole and rebuilds the table, and nothing else changes. Only bits
2:0 of `ddr` matter to `cp`; a `data` bit whose `ddr` bit is 0 does not; an unchanged `cp` rebuilds the same table; the
overlay bits never touch regions $0 to $7 or $D; and the three rules' examples (under profile P0, log entry 1). -/
def Obligations.BankPortWrites : Prop :=
  (∀ (s : State) (v : Byte), s.halted = none →
    exec (.writePortDdr v) s = .next { s with
      cfg := { s.cfg with cpuPortDdr := v }, tt := recompute s.params { s.cfg with cpuPortDdr := v } }
    ∧ exec (.writePortData v) s = .next { s with
      cfg := { s.cfg with cpuPortData := v }, tt := recompute s.params { s.cfg with cpuPortData := v } }
    ∧ exec (.writeOverlay v) s = .next { s with
      cfg := { s.cfg with romOverlayBits := v }, tt := recompute s.params { s.cfg with romOverlayBits := v } })
  ∧ (∀ (c : BankConfig) (v w : Byte),
    (v &&& 7 = w &&& 7 → cpuPort { c with cpuPortDdr := v } = cpuPort { c with cpuPortDdr := w })
    ∧ ((v ^^^ w) &&& c.cpuPortDdr = 0 → cpuPort { c with cpuPortData := v } = cpuPort { c with cpuPortData := w }))
  ∧ (∀ (p : Params) (c : BankConfig) (v : Byte),
    (cpuPort { c with cpuPortDdr := v } = cpuPort c → recompute p { c with cpuPortDdr := v } = recompute p c)
    ∧ (cpuPort { c with cpuPortData := v } = cpuPort c → recompute p { c with cpuPortData := v } = recompute p c)
    ∧ (∀ n : Region, n.val ≤ 7 ∨ n = 13 →
        (recompute p { c with romOverlayBits := v }).get n = (recompute p c).get n))
  ∧ (∃ t, exec (.writePortDdr 0x07) State.reset = .next t ∧ cpuPort t.cfg = 0 ∧ ∀ n, t.tt.get n = directEntry)
  ∧ (∃ t, exec (.writePortData 0x05) (State.reset.setBank { resetBank with cpuPortDdr := 0x07 }) = .next t
      ∧ cpuPort t.cfg = 5 ∧ (t.tt.get 13).io = true ∧ ∀ n, n ≠ 13 → t.tt.get n = directEntry)
  ∧ (∀ c : BankConfig, ∃ t, exec (.writeOverlay 0x80) (State.reset.setBank c) = .next t
      ∧ translate t.tt 0xE000 .read = .physical 0x3E000)

/-- R157, R159, R64, R61: a CPU read or fetch of a region that is not I/O returns the byte of PhysicalStore at the
translated address and changes nothing else. (The spec's own decisions D45, log entry 21.) -/
def Obligations.CpuReadOfMemory : Prop :=
  ∀ (s : State) (addr : CpuAddr), s.halted = none → (s.tt.get (regionOf addr)).io = false →
    ∃ pa, pa = (s.tt.get (regionOf addr)).rm * 2 ^ 20 + ((s.tt.get (regionOf addr)).ro.toNat + addr.toNat) % 2 ^ 20
      ∧ exec (.cpuRead addr) s = .next { s with result := some (physRead s pa) }
      ∧ exec (.cpuFetch addr) s = .next { s with result := some (physRead s pa) }

/-- R159: CpuFetch is CpuRead, at every address and in every state. (The spec's own decisions D45, log entry 21.) -/
def Obligations.CpuFetchIsCpuRead : Prop :=
  ∀ (s : State) (addr : CpuAddr), exec (.cpuFetch addr) s = exec (.cpuRead addr) s

/-- R157, R63: a CPU read of region $D with `io = 1` is one IoRead: a DMA register's byte, the fallback byte with a log
event, or some byte of the IoDispatcher (every byte: the statement holds whatever it is). The registers are the four
addresses from DMA_REG_BASE upward (R63(c), R252), each with its byte (R184); an address is unimplemented when no port is
bound to it and the list of the configuration holds it. (The spec's own decisions D22, D23, D40, D41, log entry 21; log
entries 8, 9.) -/
def Obligations.CpuReadOfIo : Prop :=
  (∀ (p : Params) (a : CpuAddr) (i : BitVec 2), p.legal = true →
    (regIndex p a = some i ↔ a.toNat = p.dmaRegBase.toNat + i.toNat))
  ∧ (∀ s : State, dmaRegRead 0 s = s.dreg0 ∧ dmaRegRead 1 s = s.dreg1 ∧ dmaRegRead 2 s = s.dreg2
    ∧ dmaRegRead 3 s = statusByte s)
  ∧ (∀ (p : Params) (a : CpuAddr), unimplementedAt p a = true ↔
    bindingAt p a = none ∧ ∃ r ∈ p.ioUnimplemented, r.1.toNat ≤ a.toNat ∧ a.toNat ≤ r.2.toNat)
  ∧ ∀ (s : State) (addr : CpuAddr), s.halted = none → regionOf addr = 13 → (s.tt.get 13).io = true →
    (∀ i, regIndex s.params addr = some i →
      exec (.cpuRead addr) s = .next { s with
        result := some (dmaRegRead i s), ioTrace := .read addr (dmaRegRead i s) :: s.ioTrace })
    ∧ (regIndex s.params addr = none → unimplementedAt s.params addr = true →
      exec (.cpuRead addr) s = .next { s with
        result := some s.params.ioFallback
        log := .unimplementedIo addr :: s.log
        ioTrace := .read addr s.params.ioFallback :: s.ioTrace })
    ∧ (regIndex s.params addr = none → unimplementedAt s.params addr = false →
      ∃ v, exec (.cpuRead addr) s = .next { s with
        result := some v, draws := s.draws + 1, ioTrace := .read addr v :: s.ioTrace })

/-- R158, R64, R62: a CPU write of a region that is not I/O stores one byte at the translated address when its region is
writable, reaching the BankConfig port that the platform binds to that byte, if any, and changes nothing at all when it is
not. (The spec's own decisions D4, D12, log entry 21; log entry 10.) -/
def Obligations.CpuWriteToMemory : Prop :=
  (∀ (p : Params) (a : Nat),
    (∀ b, memBindingAt p a = some b → (a, b) ∈ p.memBindings ∧ writableAt p a = true)
    ∧ (memBindingAt p a = none → writableAt p a = true → ∀ b, (a, b) ∉ p.memBindings))
  ∧ ∀ (s : State) (addr : CpuAddr) (v : Byte), s.halted = none → (s.tt.get (regionOf addr)).io = false →
    ∃ pa, pa = wrapPhys s.params
        ((s.tt.get (regionOf addr)).wm * 2 ^ 20 + ((s.tt.get (regionOf addr)).wo.toNat + addr.toNat) % 2 ^ 20)
      ∧ (writableAt s.params pa = true →
          ∃ m, exec (.cpuWrite addr v) s = .next (reachPort (memBindingAt s.params pa) v { s with phys := m })
            ∧ ∀ a, physRead { s with phys := m } a = if wrapPhys s.params a = pa then v else physRead s a)
      ∧ (writableAt s.params pa = false → exec (.cpuWrite addr v) s = .next s)

/-- R158, R63(b) to (d): a CPU write of region $D with `io = 1` is one IoWrite: the write of the DMA register it
selects, the write of the BankConfig port bound there, a log event, or nothing inside the block; the IoDispatcher sees
it first. The register is named by its index, or by its address from DMA_REG_BASE upward (R63(c), R252).
(The spec's own decisions D12, D22, D40, D41, log entry 21; log entries 9, 10.) -/
def Obligations.CpuWriteToIo : Prop :=
  (∀ (p : Params) (a : CpuAddr),
    (∀ b, bindingAt p a = some b → (a, b) ∈ p.ioBindings) ∧ (bindingAt p a = none → ∀ b, (a, b) ∉ p.ioBindings))
  ∧ ∀ (s : State) (addr : CpuAddr) (v : Byte), s.halted = none → regionOf addr = 13 → (s.tt.get 13).io = true →
    ∃ s', s' = { s with ioTrace := .write addr v :: s.ioTrace }
      ∧ (∀ i, regIndex s.params addr = some i
            ∨ (s.params.legal = true ∧ addr.toNat = s.params.dmaRegBase.toNat + i.toNat) →
          exec (.cpuWrite addr v) s = exec (regWriteInstr i v) s')
      ∧ regWriteInstr 0 v = .dmaRegWriteListLo v ∧ regWriteInstr 1 v = .dmaRegWriteListHi v
      ∧ regWriteInstr 2 v = .dmaRegWriteListBank v ∧ regWriteInstr 3 v = .dmaRegWriteStatus v
      ∧ (regIndex s.params addr = none →
          (bindingAt s.params addr = some .ddr → exec (.cpuWrite addr v) s = exec (.writePortDdr v) s')
          ∧ (bindingAt s.params addr = some .data → exec (.cpuWrite addr v) s = exec (.writePortData v) s')
          ∧ (bindingAt s.params addr = some .overlay → exec (.cpuWrite addr v) s = exec (.writeOverlay v) s')
          ∧ (bindingAt s.params addr = none → unimplementedAt s.params addr = true →
              exec (.cpuWrite addr v) s = .next { s' with log := .unimplementedIo addr :: s.log })
          ∧ (bindingAt s.params addr = none → unimplementedAt s.params addr = false →
              exec (.cpuWrite addr v) s = .next s'))

/-- R241, R152, R248: an access through an I/O entry outside region $D raises F1 with the CPU address and touches
nothing else; a table that `recompute` built has no such entry. (The spec's own decision D37 gives the latch and its
info, log entry 21; that a fatal condition is a next state with the latch set is the model's reading, log entry 11.) -/
def Obligations.InconsistentEntryIsFatal : Prop :=
  (∀ (s : State) (addr : CpuAddr) (v : Byte), s.halted = none → regionOf addr ≠ 13 →
    (s.tt.get (regionOf addr)).io = true →
    exec (.cpuRead addr) s = .next { s with halted := some (.configInconsistency addr) }
    ∧ exec (.cpuFetch addr) s = .next { s with halted := some (.configInconsistency addr) }
    ∧ exec (.cpuWrite addr v) s = .next { s with halted := some (.configInconsistency addr) })
  ∧ (∀ (p : Params) (c : BankConfig) (addr a : CpuAddr) (i : Intent),
    translate (recompute p c) addr i ≠ .inconsistent a)

/-- R249, R270: in the halted state every operation but Reset stops with the fault that names the cause, the engine and
the driving loop take no step unless a Reset is the next waiting operation, and Reset leaves the halted state. (The rule
says that no operation has a meaning: the fault is the model's reading, log entry 11, and the loop that waits for a Reset
at the head of `inputs` rests on log entries 12 and 13.) -/
def Obligations.HaltedIsTerminal : Prop :=
  ∀ (s : State) (f : Fatal), s.halted = some f →
    (∀ i, i ≠ .reset → exec i s = .fault (.halted f))
    ∧ (s.inputs.head? ≠ some .reset → step s = .fault (.halted f))
    ∧ ∃ t, exec .reset s = .next t ∧ t.halted = none

/-- R270: Reset in every state. The fields the rule calls unspecified are not mentioned: nothing is said of them.
(The spec's own decisions D34, log entry 21. That PhysicalStore is kept is log entry 27, that the log and the I/O trace are
kept is the model's choice, log entry 19, and the clauses on the model's own `result`, `inputs` and `credit` are log
entries 12 to 14.) -/
def Obligations.ResetEffect : Prop :=
  ∀ s : State, ∃ t, exec .reset s = .next t
    ∧ t.cfg = ⟨0, 0, 0, 0, 0, 0, 0, 0⟩
    ∧ t.tt = recompute s.params t.cfg
    ∧ t.dreg0 = 0 ∧ t.dreg1 = 0 ∧ t.dreg2 = 0
    ∧ t.busy = false ∧ t.chainCont = false ∧ t.iterCount = 0 ∧ t.halted = none
    ∧ t.phys = s.phys ∧ t.params = s.params
    ∧ t.log = s.log ∧ t.ioTrace = s.ioTrace ∧ t.result = s.result ∧ t.inputs = s.inputs ∧ t.credit = s.credit

/-- R41, R271, vector T1: the state after reset. The table's ROM offsets are those of profile P0, which the model
presumes (log entry 1). -/
def Obligations.StateAfterReset : Prop :=
  State.reset.cfg = ⟨0, 0, 0, 0, 0, 0, 0, 0⟩
  ∧ cpuPort State.reset.cfg = 7
  ∧ (∀ n : Region, State.reset.tt.get n =
      if n = 13 then ⟨0, 0, 0, 0, true⟩
      else if n = 10 ∨ n = 11 ∨ n = 14 ∨ n = 15 then ⟨0x20000, 0, 0, 0, false⟩
      else ⟨0, 0, 0, 0, false⟩)
  ∧ State.reset.phys = []
  ∧ State.reset.dreg0 = 0 ∧ State.reset.dreg1 = 0 ∧ State.reset.dreg2 = 0
  ∧ State.reset.busy = false ∧ State.reset.chainCont = false ∧ State.reset.iterCount = 0
  ∧ State.reset.halted = none ∧ statusByte State.reset = 0

/-! ### DMA registers and start -/

/-- R180: writes of registers 1, 2 and 3, in every state of the engine, and the rule's example.
(The spec's own decisions D22, log entry 21.) -/
def Obligations.ListRegisterWrites : Prop :=
  (∀ (s : State) (v : Byte), s.halted = none →
    exec (.dmaRegWriteListHi v) s = .next { s with dreg1 := v }
    ∧ exec (.dmaRegWriteListBank v) s = .next { s with dreg2 := v }
    ∧ exec (.dmaRegWriteStatus v) s = .next s)
  ∧ (∀ s : State, s.halted = none → ∃ t u, exec (.dmaRegWriteListHi 0x10) s = .next t
      ∧ exec (.dmaRegWriteListBank 0x00) t = .next u ∧ listAddress u = 0x0010#16 ++ s.dreg0)

/-- R184, R112: the four register reads return their byte and change nothing else; STATUS is one of three values while
`chain_cont` implies `busy`, its top bit mirrors `busy`, and after reset it reads 0x00.
(The spec's own decisions D22, D23, log entry 21; log entry 14.) -/
def Obligations.RegisterReads : Prop :=
  (∀ s : State, s.halted = none →
    exec .dmaRegReadListLo s = .next { s with result := some s.dreg0 }
    ∧ exec .dmaRegReadListHi s = .next { s with result := some s.dreg1 }
    ∧ exec .dmaRegReadListBank s = .next { s with result := some s.dreg2 }
    ∧ exec .dmaRegReadStatus s = .next { s with result := some (statusByte s) })
  ∧ (∀ s : State,
      statusByte s = (if s.busy then 0x80 else 0) + (if s.chainCont then 1 else 0)
      ∧ (statusByte s).getLsbD 7 = s.busy
      ∧ ((s.chainCont = true → s.busy = true) →
          statusByte s = 0x00 ∨ statusByte s = 0x80 ∨ statusByte s = 0x81)
      ∧ (s.busy = true → s.chainCont = false → statusByte s = 0x80))
  ∧ exec .dmaRegReadStatus State.reset = .next { State.reset with result := some 0x00 }

/-- R181, R182, R111: the trigger on an idle engine under INTERLEAVED stores the low byte and arms the engine at the list
address; bits 23:20 of the address are dropped in BASE; no memory is read.
(The spec's own decisions D22, D24, log entry 21.) -/
def Obligations.TriggerArmsEngine : Prop :=
  ∀ (s : State) (v : Byte) (k : Nat), s.halted = none → s.params.variant = .base → s.busy = false →
    s.params.dmaPolicy = .interleaved k →
    exec (.dmaRegWriteListLo v) s = .next { s with
      dreg0 := v
      lp := (s.dreg2.toNat * 65536 + s.dreg1.toNat * 256 + v.toNat) % 2 ^ 20
      busy := true
      chainCont := false
      phase := .fetch
      iterCount := 0 }

/-- R182, R186, R190, R280: under DRAIN the trigger ends in every state: refused for a nested trigger, or with the chain
ended, or halted by the run-away guard with the engine still busy. (The spec's own decisions D26, log entry 21.) -/
def Obligations.DrainedTriggerEnds : Prop :=
  ∀ (s : State) (v : Byte), s.halted = none → s.params.variant = .base → s.params.dmaPolicy = .drain →
    exec (.dmaRegWriteListLo v) s = .refused .nestedDmaStart
    ∨ ∃ t, exec (.dmaRegWriteListLo v) s = .next t
        ∧ ((chainEnded t ∧ t.chainCont = false ∧ t.remaining = 0 ∧ (cmdBitsOf t.cur.command).chain = false)
          ∨ (t.busy = true ∧ t.halted = some (.runawayDma t.lp) ∧ s.params.dmaMaxIterations ≤ t.iterCount))

/-- R181, R182, R185, R187, R188, R215 under DRAIN: the trigger of a descriptor that is not chained, with memory sides and
a count the ceiling allows, completes with the transfer done, as `Transferred` says for its command: `1 + count` calls,
`lp` past the descriptor, the cursors at their ends, the engine idle, and nothing outside the engine and PhysicalStore
changed but register 0, the log and, where the platform binds a port to a memory address, BankConfig. Chained descriptors
and I/O sides are left to other statements. (The spec's own decisions D3, D4, D12, D18, D20, D24, D26, D27, D28, log entry
21; its own derivation R215; log entry 10.) -/
def Obligations.DrainedTransferCompletes : Prop :=
  ∀ (s : State) (v : Byte) (la : Nat) (d : Desc11), s.halted = none → s.params.variant = .base →
    s.params.dmaPolicy = .drain → s.busy = false →
    la = (s.dreg2.toNat * 65536 + s.dreg1.toNat * 256 + v.toNat) % 2 ^ 20 → d = descriptorAt { s with lp := la } →
    (decodeOp s.params.implementedOps d.command ≠ .fill → d.source.io = false) → d.target.io = false →
    (cmdBitsOf d.command).chain = false →
    1 + countOf d.length ≤ s.params.dmaMaxIterations →
    ∃ t, exec (.dmaRegWriteListLo v) s = .next t
      ∧ chainEnded t ∧ t.chainCont = false ∧ t.remaining = 0
      ∧ t.iterCount = 1 + countOf d.length ∧ t.lp = (la + 11) % 2 ^ 20
      ∧ t.srcCur = cursorAfter d.source.addr (stepOf d.source) (countOf d.length)
      ∧ t.tgtCur = cursorAfter d.target.addr (stepOf d.target) (countOf d.length)
      ∧ t.cur.command = d.command ∧ t.dreg0 = v ∧ t.dreg1 = s.dreg1 ∧ t.dreg2 = s.dreg2
      ∧ (s.params.memBindings = [] → t.cfg = s.cfg ∧ t.tt = s.tt) ∧ t.ioTrace = s.ioTrace ∧ t.draws = s.draws
      ∧ t.result = s.result ∧ t.inputs = s.inputs ∧ t.credit = s.credit
      ∧ Transferred (decodeOp s.params.implementedOps d.command) (cmdBitsOf d.command)
          (d.source.addr.extractLsb' 0 8) (countOf d.length)
          (fun k => (cursorAfter d.source.addr (stepOf d.source) k).toNat)
          (fun k => (cursorAfter d.target.addr (stepOf d.target) k).toNat) s t

/-- R183, R182, R245: a trigger while busy logs the event, runs the prior chain with its own count, and only then, if no
fatal condition was raised, arms the new chain at the address assembled when register 0 was written.
(The spec's own decisions D46, log entry 21.) -/
def Obligations.RetriggerDrainsFirst : Prop :=
  ∀ (s : State) (v : Byte) (k : Nat), s.halted = none → s.params.variant = .base → s.busy = true →
    s.params.dmaPolicy = .interleaved k →
    ∃ s', s' = { s with dreg0 := v, log := .retriggerWhileBusy :: s.log }
      ∧ (∀ r, engineCalls (s.params.dmaMaxIterations - s.iterCount + 1) s' = .refused r →
          exec (.dmaRegWriteListLo v) s = .refused r)
      ∧ (∀ u, engineCalls (s.params.dmaMaxIterations - s.iterCount + 1) s' = .next u →
          (u.halted ≠ none → exec (.dmaRegWriteListLo v) s = .next u)
          ∧ (u.halted = none → u.busy = false
            ∧ exec (.dmaRegWriteListLo v) s = .next { u with
                lp := (s.dreg2.toNat * 65536 + s.dreg1.toNat * 256 + v.toNat) % 2 ^ 20
                busy := true
                chainCont := false
                phase := .fetch
                iterCount := 0 }))

/-- R106, U15: in EXTENDED a DMA start is refused, idle or busy. (The spec's own decisions D39, log entry 21; log entry 3.) -/
def Obligations.ExtendedStartRefused : Prop :=
  ∀ (s : State) (v : Byte) (m : Nat), s.halted = none → s.params.variant = .extended m →
    exec (.dmaRegWriteListLo v) s = .refused .extendedDmaStart

/-! ### The engine -/

/-- R185, R242, R186, R248: DmaStep on an idle engine does nothing; a call at the ceiling while busy raises F2 with `lp`
and performs nothing. (The spec's own decisions D25, D26, log entry 21.) -/
def Obligations.IdleAndCeilingSteps : Prop :=
  (∀ s : State, s.halted = none → s.busy = false → exec .dmaStep s = .next s)
  ∧ (∀ s : State, s.halted = none → s.busy = true → s.params.dmaMaxIterations ≤ s.iterCount →
    exec .dmaStep s = .next { s with halted := some (.runawayDma s.lp) })

/-- R187, R101, R105 to R107, R34: in the Fetch phase DmaStep latches the descriptor at `lp` and advances `lp` past it;
EXTENDED also latches the sub-command byte. (The spec's own decisions D15, D16, D18, log entry 21.) -/
def Obligations.FetchLatchesDescriptor : Prop :=
  ∀ (s : State) (b : Nat → Byte), s.halted = none → s.busy = true → s.phase = .fetch →
    s.iterCount < s.params.dmaMaxIterations → (∀ i, b i = physRead s (s.lp + i)) →
    ∃ (S T : BitVec 24) (stepof : BitVec 24 → Step), S = b 5 ++ b 4 ++ b 3 ∧ T = b 8 ++ b 7 ++ b 6
      ∧ (∀ A, stepof A = if A.getLsbD 20 then .hold else if A.getLsbD 22 then .down else .up)
      ∧ exec .dmaStep s = .next { s with
          cur := {
            command := b 0
            length := b 2 ++ b 1
            src := ⟨S.extractLsb' 0 20, S.getLsbD 23, stepof S, 0⟩
            tgt := ⟨T.extractLsb' 0 20, T.getLsbD 23, stepof T, 0⟩
            modulo := b 10 ++ b 9
            subcmd := if s.params.variant = .base then s.cur.subcmd else b 11 }
          remaining := if (b 2 ++ b 1 : BitVec 16) = 0 then 65536 else (b 2 ++ b 1 : BitVec 16).toNat
          srcCur := S.extractLsb' 0 20
          tgtCur := T.extractLsb' 0 20
          chainCont := false
          phase := .execute
          lp := (s.lp + if s.params.variant = .base then 11 else 12) % s.params.physSize
          iterCount := s.iterCount + 1 }

/-- R187, R101, R105, R106 for the two formats as instructions: DESC11 latches the whole descriptor, ADDR3 one side.
(The spec's own decisions D15, D16, D18, log entry 21; log entry 15.) -/
def Obligations.FormatsLatch : Prop :=
  (∀ (s : State) (d : Desc11), s.halted = none →
    exec (.desc11 d) s = .next { s with
      cur := ⟨d.command, d.length, ⟨d.source.addr, d.source.io, stepOf d.source, 0⟩,
        ⟨d.target.addr, d.target.io, stepOf d.target, 0⟩, d.modulo,
        if s.params.variant = .base then s.cur.subcmd else physRead s (s.lp + 11)⟩
      remaining := if d.length = 0 then 65536 else d.length.toNat
      srcCur := d.source.addr
      tgtCur := d.target.addr
      chainCont := false
      phase := .execute
      lp := (s.lp + if s.params.variant = .base then 11 else 12) % s.params.physSize })
  ∧ (∀ (s : State) (a : Addr3), s.halted = none →
      exec (.addr3 .src a) s = .next { s with
        cur := { s.cur with src := ⟨a.addr, a.io, stepOf a, 0⟩ }, srcCur := a.addr }
      ∧ exec (.addr3 .tgt a) s = .next { s with
        cur := { s.cur with tgt := ⟨a.addr, a.io, stepOf a, 0⟩ }, tgtCur := a.addr })
  ∧ (∀ a : Addr3, (a.hold = true → stepOf a = .hold) ∧ (a.hold = false → a.dir = true → stepOf a = .down)
      ∧ (a.hold = false → a.dir = false → stepOf a = .up))

/-- R188: in the Execute phase DmaStep is the instruction its latched command byte decodes to, with the call counted.
(The spec's own decisions D17, log entry 21; log entry 15.) -/
def Obligations.DmaStepRunsLatchedCommand : Prop :=
  ∀ (s : State) (i : Instr), s.halted = none → s.busy = true → s.phase = .execute →
    s.iterCount < s.params.dmaMaxIterations → decode s.params.implementedOps .cmd [s.cur.command] = .ok i [] →
    exec .dmaStep s = exec i { s with iterCount := s.iterCount + 1 }

/-- R210, R188, R189, R62, R65: COPY between memory sides, at every byte of the descriptor.
(The spec's own decisions D4, D12, D20, log entry 21; log entries 10, 15.) -/
def Obligations.CopyByteInMemory : Prop :=
  ∀ (s : State) (c : CmdBits), s.halted = none → s.cur.src.io = false → s.cur.tgt.io = false → 1 ≤ s.remaining →
    ∃ t m, exec (.copy c) s = .next t
      ∧ t = afterByte c.chain m
          (reachPort (memBindingAt s.params (cursorAddr s .tgt)) (physRead s (cursorAddr s .src)) s)
      ∧ ∀ a, physRead t a =
          if wrapPhys s.params a = cursorAddr s .tgt ∧ writableAt s.params (cursorAddr s .tgt) = true
          then physRead s (cursorAddr s .src) else physRead s a

/-- R211, R188, R189, R62, R65: MIX between memory sides.
(The spec's own decisions D4, D12, D20, D28, log entry 21; log entries 10, 15.) -/
def Obligations.MixByteInMemory : Prop :=
  ∀ (s : State) (c : CmdBits), s.halted = none → s.cur.src.io = false → s.cur.tgt.io = false → 1 ≤ s.remaining →
    ∃ t m, exec (.mix c) s = .next t
      ∧ t = afterByte c.chain m (reachPort (memBindingAt s.params (cursorAddr s .tgt))
          (mixByte c (physRead s (cursorAddr s .src)) (physRead s (cursorAddr s .tgt))) s)
      ∧ ∀ a, physRead t a =
          if wrapPhys s.params a = cursorAddr s .tgt ∧ writableAt s.params (cursorAddr s .tgt) = true
          then mixByte c (physRead s (cursorAddr s .src)) (physRead s (cursorAddr s .tgt)) else physRead s a

/-- R211, R108: the minterm function, bit by bit, and the rule's example.
(The spec's own decisions D17, log entry 21.) -/
def Obligations.MixIsMintermFunction : Prop :=
  (∀ (c : CmdBits) (s d : Byte) (i : Nat), i < 8 →
    (mixByte c s d).getLsbD i =
      match s.getLsbD i, d.getLsbD i with
      | true, true => c.mt3
      | true, false => c.mt2
      | false, true => c.mt1
      | false, false => c.mt0)
  ∧ (∀ (c : CmdBits) (s d m0 m1 m2 m3 : Byte),
      m0 = (if c.mt0 then 0xFF else 0) → m1 = (if c.mt1 then 0xFF else 0) →
      m2 = (if c.mt2 then 0xFF else 0) → m3 = (if c.mt3 then 0xFF else 0) →
      mixByte c s d = (s &&& d &&& m3) ||| (s &&& ~~~d &&& m2) ||| (~~~s &&& d &&& m1) ||| (~~~s &&& ~~~d &&& m0))
  ∧ mixByte (cmdBitsOf 0x61) 0xCC 0xAA = 0x66

/-- R212, R188, R189, R62, R65: SWAP between memory sides; where one side is not writable the exchange is one-way.
(The spec's own decisions D4, D12, D20, D28, log entry 21; log entries 10, 15.) -/
def Obligations.SwapBytesInMemory : Prop :=
  ∀ (s : State) (c : CmdBits), s.halted = none → s.cur.src.io = false → s.cur.tgt.io = false → 1 ≤ s.remaining →
    ∃ t m, exec (.swap c) s = .next t
      ∧ t = afterByte c.chain m
          (reachPort (memBindingAt s.params (cursorAddr s .tgt)) (physRead s (cursorAddr s .src))
            (reachPort (memBindingAt s.params (cursorAddr s .src)) (physRead s (cursorAddr s .tgt)) s))
      ∧ ∀ a, physRead t a =
          if wrapPhys s.params a = cursorAddr s .tgt ∧ writableAt s.params (cursorAddr s .tgt) = true
          then physRead s (cursorAddr s .src)
          else if wrapPhys s.params a = cursorAddr s .src ∧ writableAt s.params (cursorAddr s .src) = true
          then physRead s (cursorAddr s .tgt)
          else physRead s a

/-- R213, R188, R189, R62, R65: FILL of a memory target; the source side's io flag has no effect.
(The spec's own decisions D4, D12, D20, D27, log entry 21; log entries 10, 15.) -/
def Obligations.FillByteInMemory : Prop :=
  ∀ (s : State) (c : CmdBits), s.halted = none → s.cur.tgt.io = false → 1 ≤ s.remaining →
    ∃ t m, exec (.fill c) s = .next t
      ∧ t = afterByte c.chain m
          (reachPort (memBindingAt s.params (cursorAddr s .tgt)) (s.cur.src.addr.extractLsb' 0 8) s)
      ∧ ∀ a, physRead t a =
          if wrapPhys s.params a = cursorAddr s .tgt ∧ writableAt s.params (cursorAddr s .tgt) = true
          then s.cur.src.addr.extractLsb' 0 8 else physRead s a

/-- R214, R188, R244: UNKNOWN logs its code, makes no access and takes its one-byte step.
(The spec's own decisions D29, log entry 21; log entry 15.) -/
def Obligations.UnknownStepLogsOnly : Prop :=
  ∀ (s : State) (v : BitVec 2) (c : CmdBits), s.halted = none → 1 ≤ s.remaining →
    exec (.unknown v c) s = .next (afterByte c.chain s.phys { s with log := .unknownDmaCommand v :: s.log })

/-- R65, R210, R213, R63, R191, R278: COPY from memory, and FILL, to an I/O side that is not DMA register 0: one IoWrite at
$D000 plus the low 12 bits of the cursor, with its effect on DMA registers 1 to 3, on a bound port, at an unimplemented
address and elsewhere (`ioWrites`), and no physical byte changed.
(The spec's own decisions D19, D22, D40, log entry 21; log entries 9, 10, 15.) -/
def Obligations.WriteToIoSide : Prop :=
  ∀ (s : State) (c : CmdBits) (a : CpuAddr), s.halted = none → s.cur.tgt.io = true → 1 ≤ s.remaining →
    a.toNat = 0xD000 + s.tgtCur.toNat % 4096 → regIndex s.params a ≠ some 0 →
    (∃ u, ioWrites s a (s.cur.src.addr.extractLsb' 0 8) u ∧ exec (.fill c) s = .next (afterByte c.chain s.phys u))
    ∧ (s.cur.src.io = false →
      ∃ u, ioWrites s a (physRead s (cursorAddr s .src)) u ∧ exec (.copy c) s = .next (afterByte c.chain s.phys u))

/-- R65, R63, R210, R243: COPY from an I/O side to memory: one IoRead at $D000 plus the low 12 bits of the cursor, of a DMA
register, of an unimplemented address or of another (`ioReads`), whose byte, whatever it is, is stored where the target is
writable. (The spec's own decisions D4, D12, D19, D22, D40, log entry 21; log entries 8, 9, 10, 15.) -/
def Obligations.CopyFromIoSide : Prop :=
  ∀ (s : State) (c : CmdBits) (a : CpuAddr), s.halted = none → s.cur.src.io = true → s.cur.tgt.io = false →
    1 ≤ s.remaining → a.toNat = 0xD000 + s.srcCur.toNat % 4096 →
    ∃ v u m, ioReads s a v u ∧ byteStored s (cursorAddr s .tgt) v m
      ∧ exec (.copy c) s
          = .next (afterByte c.chain m (reachPort (memBindingAt s.params (cursorAddr s .tgt)) v u))

/-- R191, R188, R210 to R213, R278: an Execute step is refused when a side it writes reaches DMA register 0, and in every
other case, with memory or I/O sides alike, it completes: its accesses with their values in their order (`stepAccesses`),
then the tail; nothing of `ExecuteFrame` changed, BankConfig, the table and registers 1 and 2 unchanged where every side it
writes is memory that no port is bound to, and no byte changed but at the cursors of the memory sides it writes.
(The spec's own decisions D4, D12, D19, D28, D33, log entry 21; log entries 10, 15, 20.) -/
def Obligations.CommandsCompleteOrNest : Prop :=
  ∀ (s : State) (op : Op) (c : CmdBits), s.halted = none →
    ((∃ n, writesSide op n ∧ hitsTrigger s n) → exec (cmdInstr op c) s = .refused .nestedDmaStart)
    ∧ ((∀ n, writesSide op n → ¬ hitsTrigger s n) →
        ∃ t, exec (cmdInstr op c) s = .next t ∧ ExecuteFrame s t
          ∧ (1 ≤ s.remaining → ∃ u, stepAccesses op c s u ∧ t = afterByte c.chain u.phys u)
          ∧ t.srcCur = s.srcCur + stepAmount s.cur.src.step ∧ t.tgtCur = s.tgtCur + stepAmount s.cur.tgt.step
          ∧ t.remaining = s.remaining - 1
          ∧ ((∀ n, writesSide op n → (sideOf s n).io = false ∧ memBindingAt s.params (cursorAddr s n) = none) →
              t.cfg = s.cfg ∧ t.tt = s.tt ∧ t.dreg1 = s.dreg1 ∧ t.dreg2 = s.dreg2)
          ∧ ∀ a, (∀ n, writesSide op n → (sideOf s n).io = false → wrapPhys s.params a ≠ cursorAddr s n) →
              physRead t a = physRead s a)

/-- R186, R185: every call that leaves the engine busy is counted, none raises below the ceiling, and the call after
exactly `DMA_MAX_ITERATIONS` of them raises F2. (The spec's own decisions D26, log entry 21.) -/
def Obligations.CallsAreCounted : Prop :=
  (∀ (n : Nat) (s t : State), s.halted = none → engineCalls n s = .next t → t.halted = none → t.busy = true →
    t.iterCount = s.iterCount + n)
  ∧ (∀ (n : Nat) (s t : State), s.halted = none → engineCalls n s = .next t →
    s.iterCount + n ≤ s.params.dmaMaxIterations → t.halted = none)
  ∧ (∀ (s t : State), s.halted = none → s.iterCount = 0 → engineCalls s.params.dmaMaxIterations s = .next t →
    t.busy = true → exec .dmaStep t = .next { t with halted := some (.runawayDma t.lp) })

/-- R215 for Fill, R185: the bytes left of a descriptor take that many calls and write the constant to every writable
target byte, and to no other. (The spec's own decisions D4, D20, D27, log entry 21; its own derivation R215.) -/
def Obligations.FillRun : Prop :=
  ∀ s : State, ReadyToRun s .fill → s.cur.tgt.io = false →
    ∃ t, engineCalls s.remaining s = .next t ∧ RanDescriptor s t
      ∧ (∀ k, k < s.remaining → writableAt s.params (sideAddr s .tgt k) = true →
          physRead t (sideAddr s .tgt k) = s.cur.src.addr.extractLsb' 0 8)
      ∧ (∀ a, (∀ k, k < s.remaining → sideAddr s .tgt k = wrapPhys s.params a →
            writableAt s.params (sideAddr s .tgt k) = false) → physRead t a = physRead s a)

/-- R215 for Copy: with disjoint source and target bytes, every writable target byte ends with the byte of the last
operation that used it, and no other byte changes. Overlapping ranges (R76) are left out. (The spec's own decisions D4, D20,
log entry 21; its own derivations R215 and R76.) -/
def Obligations.CopyRun : Prop :=
  ∀ s : State, ReadyToRun s .copy → s.cur.src.io = false → s.cur.tgt.io = false →
    (∀ j k, j < s.remaining → k < s.remaining → sideAddr s .src j ≠ sideAddr s .tgt k) →
    ∃ t, engineCalls s.remaining s = .next t ∧ RanDescriptor s t
      ∧ (∀ k, k < s.remaining → writableAt s.params (sideAddr s .tgt k) = true →
          (∀ j, k < j → j < s.remaining → sideAddr s .tgt j ≠ sideAddr s .tgt k) →
          physRead t (sideAddr s .tgt k) = physRead s (sideAddr s .src k))
      ∧ (∀ a, (∀ k, k < s.remaining → sideAddr s .tgt k = wrapPhys s.params a →
            writableAt s.params (sideAddr s .tgt k) = false) → physRead t a = physRead s a)

/-- R215 for Mix: with disjoint source and target bytes and target bytes all different, every writable target byte ends
with the minterm function of the two old bytes, and no other byte changes. A held target (step 0) over several bytes is
left out. (The spec's own decisions D4, D17, D20, log entry 21; its own derivation R215.) -/
def Obligations.MixRun : Prop :=
  ∀ s : State, ReadyToRun s .mix → s.cur.src.io = false → s.cur.tgt.io = false →
    (∀ j k, j < s.remaining → k < s.remaining → sideAddr s .src j ≠ sideAddr s .tgt k) →
    (∀ j k, j < k → k < s.remaining → sideAddr s .tgt j ≠ sideAddr s .tgt k) →
    ∃ t, engineCalls s.remaining s = .next t ∧ RanDescriptor s t
      ∧ (∀ k, k < s.remaining → writableAt s.params (sideAddr s .tgt k) = true →
          physRead t (sideAddr s .tgt k)
            = mixByte (cmdBitsOf s.cur.command) (physRead s (sideAddr s .src k)) (physRead s (sideAddr s .tgt k)))
      ∧ (∀ a, (∀ k, k < s.remaining → sideAddr s .tgt k = wrapPhys s.params a →
            writableAt s.params (sideAddr s .tgt k) = false) → physRead t a = physRead s a)

/-- R215 for Swap: with source and target bytes disjoint and all different, the writable bytes of the two ranges are
exchanged, and no other byte changes. Held sides over several bytes and crossing ranges are left out. (The spec's own
decisions D4, D20, log entry 21; its own derivation R215.) -/
def Obligations.SwapRun : Prop :=
  ∀ s : State, ReadyToRun s .swap → s.cur.src.io = false → s.cur.tgt.io = false →
    (∀ j k, j < s.remaining → k < s.remaining → sideAddr s .src j ≠ sideAddr s .tgt k) →
    (∀ j k, j < k → k < s.remaining → sideAddr s .tgt j ≠ sideAddr s .tgt k) →
    (∀ j k, j < k → k < s.remaining → sideAddr s .src j ≠ sideAddr s .src k) →
    ∃ t, engineCalls s.remaining s = .next t ∧ RanDescriptor s t
      ∧ (∀ k, k < s.remaining →
          (writableAt s.params (sideAddr s .tgt k) = true →
            physRead t (sideAddr s .tgt k) = physRead s (sideAddr s .src k))
          ∧ (writableAt s.params (sideAddr s .src k) = true →
            physRead t (sideAddr s .src k) = physRead s (sideAddr s .tgt k)))
      ∧ (∀ a, (∀ k, k < s.remaining →
            (sideAddr s .tgt k = wrapPhys s.params a → writableAt s.params (sideAddr s .tgt k) = false)
            ∧ (sideAddr s .src k = wrapPhys s.params a → writableAt s.params (sideAddr s .src k) = false)) →
          physRead t a = physRead s a)

/-- R190, R75: with nobody else moving, a trigger on an idle engine ends alike under both driving policies: DRAIN gives
what INTERLEAVED's armed state gives after the calls the ceiling allows and one more.
(The spec's own decisions D24, D26, D32, log entry 21.) -/
def Obligations.DrainEqualsInterleaved : Prop :=
  ∀ (s : State) (v : Byte) (k : Nat), s.halted = none → s.busy = false → s.params.variant = .base →
    s.params.dmaPolicy = .drain →
    ∃ u, exec (.dmaRegWriteListLo v) { s with params := { s.params with dmaPolicy := .interleaved k } } = .next u
      ∧ exec (.dmaRegWriteListLo v) s
          = mapNext (fun t => { t with params := s.params }) (engineCalls (s.params.dmaMaxIterations + 1) u)

/-! ### The whole machine -/

/-- R62, R251: a byte of a region that is not writable is changed by no operation of any agent, however long the
transfer it starts. (The spec's own decisions D4, log entry 21.) -/
def Obligations.ProtectedBytesNeverChange : Prop :=
  ∀ (i : Instr) (s t : State) (a : Nat), exec i s = .next t →
    writableAt s.params (wrapPhys s.params a) = false → physRead t a = physRead s a

/-- R21 to R26: the map fields are written by SetMap and Reset alone; on a platform that binds no I/O address, BankConfig
and the table are written by the four mutation operations and Reset alone, whatever a DMA transfer does.
(The spec's own decisions D12, log entry 21; log entry 10.) -/
def Obligations.BankWritersAreTheFourPorts : Prop :=
  ∀ (i : Instr) (s t : State), exec i s = .next t → i ≠ .reset →
    (∀ m a b c d, i ≠ .setMap m a b c d) →
    (t.cfg.mapMask = s.cfg.mapMask ∧ t.cfg.mapOffsetLow = s.cfg.mapOffsetLow
      ∧ t.cfg.mapOffsetHigh = s.cfg.mapOffsetHigh ∧ t.cfg.mapMegabyteLow = s.cfg.mapMegabyteLow
      ∧ t.cfg.mapMegabyteHigh = s.cfg.mapMegabyteHigh)
    ∧ (s.params.ioBindings = [] → s.params.memBindings = [] → (∀ v, i ≠ .writePortDdr v) → (∀ v, i ≠ .writePortData v) →
        (∀ v, i ≠ .writeOverlay v) → t.cfg = s.cfg ∧ t.tt = s.tt)

/-- R65, conflict C1: on a platform that binds no I/O and no memory address, an engine call does not depend on BankConfig or the table,
nor change them. (The spec's own decisions D12, D19, log entry 21; log entry 10.) -/
def Obligations.EngineIgnoresBanking : Prop :=
  ∀ (s : State) (c : BankConfig) (u : Vector Entry 16), s.params.ioBindings = [] → s.params.memBindings = [] →
    exec .dmaStep { s with cfg := c, tt := u }
      = mapNext (fun t => { t with cfg := c, tt := u }) (exec .dmaStep s)

/-- R28, R29, R33, R36, R186: the invariant of the machine is kept by every step, and the parameters never change.
(The spec's own decisions D21, D26, D30, log entry 21. That only agents' operations wait in `inputs` is log entry 12, the
turn rule of `step` log entry 13, and that the writers keep the widths log entry 24.) -/
def Obligations.StepKeepsTheInvariant : Prop :=
  ∀ s t : State, s.Inv → step s = .next t → t.Inv ∧ t.params = s.params

/-- R41: the invariant holds right after reset. (The spec's own decisions D34, log entry 21; log entry 6.) -/
def Obligations.ResetMeetsTheInvariant : Prop := State.reset.Inv

/-- R9, R75, R190: a step is the meaning of the decoded instruction. On the engine's turn it runs what the latched
command byte, or the bytes at `lp`, decode to, with the call counted and one owed call less; otherwise it takes the first
waiting operation, and the calls then given to the engine are at most `k`. Under DRAIN an active engine has the turn. The
turn rule itself is the model's choice (log entry 13). -/
def Obligations.StepRunsTheDecodedInstruction : Prop :=
  ∀ (s : State) (i : Instr),
    (engineTurn s = true → s.phase = .execute → s.iterCount < s.params.dmaMaxIterations →
      decode s.params.implementedOps .cmd [s.cur.command] = .ok i [] →
      step s = exec i { s with iterCount := s.iterCount + 1, credit := s.credit - 1 })
    ∧ (engineTurn s = true → s.phase = .fetch → s.iterCount < s.params.dmaMaxIterations →
      decode s.params.implementedOps .desc11 (descriptorBytes s) = .ok i [] →
      step s = exec i { s with iterCount := s.iterCount + 1, credit := s.credit - 1 })
    ∧ (∀ rest, engineTurn s = false → s.inputs = i :: rest →
      step s = exec i { s with inputs := rest, credit := creditAfter s.params i s.draws, draws := s.draws + 1 })
    ∧ (∀ k, s.params.dmaPolicy = .interleaved k → creditAfter s.params i s.draws ≤ k)
    ∧ (s.params.dmaPolicy = .drain → s.halted = none → engineTurn s = s.busy)

/-- R280: a call that clears `busy` leaves the end of a chain: nothing left, no chain bit, not halted.
(The spec's own decisions D31, log entry 21.) -/
def Obligations.EndOfChain : Prop :=
  ∀ s t : State, exec .dmaStep s = .next t → s.busy = true → t.busy = false →
    chainEnded t ∧ t.remaining = 0 ∧ t.chainCont = false ∧ (cmdBitsOf t.cur.command).chain = false

/-- R30, R5: under a legal configuration every physical address lies in exactly one region, and it is writable exactly
when that region is not ROM. (The spec's own decisions D4, log entry 21; log entry 22.) -/
def Obligations.LegalMapCoversOnce : Prop :=
  ∀ (p : Params) (a : Nat), p.legal = true → a < p.physSize →
    ∃ r, regionAt p a = some r ∧ r ∈ p.physMap ∧ r.contains a = true
      ∧ (∀ q, q ∈ p.physMap → q.contains a = true → q = r)
      ∧ (writableAt p a = true ↔ r.kind ≠ .rom)

/-! ### Encoding -/

/-- R101, R103 to R105, R110: every well-formed instruction that has an encoding decodes from it, with whatever bytes
follow left over. (The spec's own decisions D15 to D18, D22, log entry 21. R100(f) gives register writes and reads no bit
encoding: their byte form is the model's choice, log entry 16.) -/
def Obligations.DecodeOfEncode : Prop :=
  ∀ (p : Params) (i : Instr) (bytes rest : List Byte), WellFormed p i = true → encode i = some bytes →
    decode p.implementedOps (formatOf i) (bytes ++ rest) = .ok i rest

/-- R101, R103 to R105, R110, R187: the decoder is total on command bytes and descriptors, and whatever it reads is
well-formed, of the format asked for, and encodes to the bytes it was read from: no bit is dropped.
(The spec's own decisions D15 to D18, D22, log entry 21. R100(f) gives register writes and reads no bit encoding: their
byte form is the model's choice, log entry 16.) -/
def Obligations.EncodeOfDecode : Prop :=
  (∀ (p : Params) (f : Format) (bytes rest : List Byte) (i : Instr),
    decode p.implementedOps f bytes = .ok i rest →
    WellFormed p i = true ∧ formatOf i = f ∧ ∃ used, encode i = some used ∧ bytes = used ++ rest)
  ∧ (∀ (ops : OpSet) (b : Byte) (rest : List Byte), ∃ i, decode ops .cmd (b :: rest) = .ok i rest)
  ∧ (∀ (ops : OpSet) (bytes : List Byte), 11 ≤ bytes.length → ∃ i, decode ops .desc11 bytes = .ok i (bytes.drop 11))

/-- R103, R104, R105, R117: command bytes and an address field of the spec's encodings, and the instructions they stand for
(the spec's own decisions D15, D17, D18, D43, log entry 21). The words of a register write and of a register read are the
model's own byte form, an index byte and, for a write, a data byte, since R100(f) gives DmaRegWrite and DmaRegRead no bit
encoding (DESIGN CHOICE, log entry 16); R110 gives only the index that they carry and its range (D22). -/
def Obligations.SampleWordsDecode : Prop :=
  decode OpSet.all .cmd [0x00] = .ok (.copy ⟨false, false, false, false, false, false⟩) []
  ∧ decode OpSet.all .cmd [0x61] = .ok (.mix ⟨false, false, false, true, true, false⟩) []
  ∧ decode OpSet.all .cmd [0x07] = .ok (.fill ⟨true, false, false, false, false, false⟩) []
  ∧ decode ⟨true, false, false, true⟩ .cmd [0x01]
      = .ok (.unknown 1 ⟨false, false, false, false, false, false⟩) []
  ∧ decode OpSet.all (.addr3 .src) [0x03, 0x10, 0x40] = .ok (.addr3 .src ⟨0x01003, false, false, true, false⟩) []
  ∧ decode OpSet.all .regWrite [0x01, 0x10] = .ok (.dmaRegWriteListHi 0x10) []
  ∧ decode OpSet.all .regRead [0x03] = .ok .dmaRegReadStatus []
  ∧ decode OpSet.all .regRead [0x04] = .rejected (.noSuchRegister 0x04)
end

