-- ==== Sys2Proof/Laws/Bank.lean ====
section
/-! SUPPORT. The translator's functions: what each entry of a rebuilt table is, and what `translate` can answer. -/

namespace Sys2Proof.Machine

/-- Entry `n` of a rebuilt table is `entry(cfg, n)` (R142). -/
@[simp] theorem recompute_get (p : Params) (c : BankConfig) (n : Region) : (recompute p c).get n = entry p c n := by
  fin_cases n <;> rfl

/-- Two tables are equal when their entries are. -/
theorem table_ext (t u : Vector Entry 16) (h : ∀ n : Region, t.get n = u.get n) : t = u := by
  apply Vector.ext
  intro i hi
  exact h ⟨i, hi⟩

/-- The region of an address is its top nibble (R7). -/
theorem regionOf_val (addr : CpuAddr) : (regionOf addr).val = addr.toNat / 4096 := by
  have h : addr.toNat / 4096 < 16 := by
    have := addr.isLt
    omega
  simp only [regionOf, BitVec.toFin_extractLsb', Fin.val_ofNat, Nat.shiftRight_eq_div_pow]
  omega

/-- `translate` answers a physical address exactly when the entry is no I/O entry (R151). -/
theorem translate_of_not_io (tt : Vector Entry 16) (addr : CpuAddr) (i : Intent)
    (h : (tt.get (regionOf addr)).io = false) :
    translate tt addr i = .physical ((tt.get (regionOf addr)).physical addr i) := by
  simp [translate, h]

/-- `translate` answers the I/O address itself for an I/O entry of region $D (R151). -/
theorem translate_of_io (tt : Vector Entry 16) (addr : CpuAddr) (i : Intent)
    (h : (tt.get (regionOf addr)).io = true) (hD : regionOf addr = 13) : translate tt addr i = .io addr := by
  rw [hD] at h
  simp [translate, h, hD]

/-- `translate` finds the inconsistency for an I/O entry of any other region (R152). -/
theorem translate_of_inconsistent (tt : Vector Entry 16) (addr : CpuAddr) (i : Intent)
    (h : (tt.get (regionOf addr)).io = true) (hD : regionOf addr ≠ 13) :
    translate tt addr i = .inconsistent addr := by
  simp [translate, h, hD]

/-- Everything `translate` can answer (R151, R152). -/
theorem translate_cases (tt : Vector Entry 16) (addr : CpuAddr) (i : Intent) :
    ((tt.get (regionOf addr)).io = false ∧ translate tt addr i = .physical ((tt.get (regionOf addr)).physical addr i))
    ∨ ((tt.get (regionOf addr)).io = true ∧ regionOf addr = 13 ∧ translate tt addr i = .io addr)
    ∨ ((tt.get (regionOf addr)).io = true ∧ regionOf addr ≠ 13 ∧ translate tt addr i = .inconsistent addr) := by
  cases h : (tt.get (regionOf addr)).io with
  | false => exact .inl ⟨rfl, translate_of_not_io tt addr i h⟩
  | true =>
    by_cases hD : regionOf addr = 13
    · exact .inr (.inl ⟨rfl, hD, translate_of_io tt addr i h hD⟩)
    · exact .inr (.inr ⟨rfl, hD, translate_of_inconsistent tt addr i h hD⟩)

/-- A megabyte selector is below `2^MB_BITS` (R23). -/
theorem megabyte_lt (p : Params) (mb : Nat) : megabyte p mb < 2 ^ p.mbBits :=
  Nat.mod_lt _ (Nat.two_pow_pos _)

/-- In BASE every megabyte selector reads 0 (R23). -/
theorem megabyte_base (p : Params) (mb : Nat) (h : p.variant = .base) : megabyte p mb = 0 := by
  simp [megabyte, Params.mbBits, h, Nat.mod_one]

/-- Everything `entry` can be: overlay, mapped, or unclaimed, in that order (R142). -/
theorem entry_cases (p : Params) (c : BankConfig) (n : Region) :
    (overlayClaims p c n = true ∧ entry p c n = entryOverlay p n)
    ∨ (overlayClaims p c n = false ∧ mapClaims c n = true ∧ entry p c n = entryMapped p c n)
    ∨ (overlayClaims p c n = false ∧ mapClaims c n = false ∧ entry p c n = entryUnclaimed p c n) := by
  cases h : overlayClaims p c n with
  | true => exact .inl ⟨rfl, by simp [entry, h]⟩
  | false =>
    cases k : mapClaims c n with
    | true => exact .inr (.inl ⟨rfl, rfl, by simp [entry, h, k]⟩)
    | false => exact .inr (.inr ⟨rfl, rfl, by simp [entry, h, k]⟩)

end Sys2Proof.Machine
end

