-- ==== Sys2Proof/Laws/Memory.lean ====
section
/-! SUPPORT. PhysicalStore as data: a read after a write, and the canonical form (R29, R71). -/

namespace Sys2Proof.Machine

@[simp] theorem Memory.read_nil (a : Nat) : Memory.read [] a = none := rfl

@[simp] theorem Memory.unlisted_eq_none (a : Nat) : Memory.unlisted a = none := rfl

theorem Memory.read_cons (k : Nat) (b : Byte) (m : Memory) (a : Nat) :
    Memory.read ((k, b) :: m) a = if k = a then some b else Memory.read m a := rfl

/-- A read after a write of the same address gives the byte written. -/
@[simp] theorem Memory.read_write_same (m : Memory) (a : Nat) (v : Byte) :
    Memory.read (Memory.write m a v) a = some v := by
  induction m with
  | nil => simp [Memory.write, Memory.read]
  | cons c m ih =>
    obtain ⟨k, b⟩ := c
    simp only [Memory.write]
    split
    · simp [Memory.read]
    · split
      · simp [Memory.read]
      · rename_i h
        simp [Memory.read, Ne.symm h, ih]

/-- A write leaves every other address alone. -/
theorem Memory.read_write_other (m : Memory) (a b : Nat) (v : Byte) (h : a ≠ b) :
    Memory.read (Memory.write m a v) b = Memory.read m b := by
  induction m with
  | nil => simp [Memory.write, Memory.read, h]
  | cons c m ih =>
    obtain ⟨k, x⟩ := c
    simp only [Memory.write]
    split
    · simp [Memory.read, h]
    · split
      · rename_i hk
        subst hk
        simp [Memory.read, h]
      · simp [Memory.read, ih]

/-- What a byte reads as after a write: one lemma for both cases. -/
theorem Memory.read_write (m : Memory) (a b : Nat) (v : Byte) :
    Memory.read (Memory.write m a v) b = if a = b then some v else Memory.read m b := by
  by_cases h : a = b
  · subst h; simp
  · simp [h, Memory.read_write_other m a b v h]

theorem Memory.risesAbove_mono (m : Memory) (lo lo' : Nat) (hle : lo' ≤ lo) (h : Memory.risesAbove m lo = true) :
    Memory.risesAbove m lo' = true := by
  cases m with
  | nil => rfl
  | cons c m =>
    obtain ⟨k, b⟩ := c
    simp only [Memory.risesAbove, Bool.and_eq_true, decide_eq_true_eq] at *
    exact ⟨by omega, h.2⟩

theorem Memory.risesAbove_write (m : Memory) (lo a : Nat) (v : Byte) (hlo : lo < a)
    (h : Memory.risesAbove m lo = true) : Memory.risesAbove (Memory.write m a v) lo = true := by
  induction m generalizing lo with
  | nil => simp [Memory.write, Memory.risesAbove, hlo]
  | cons c m ih =>
    obtain ⟨k, b⟩ := c
    simp only [Memory.risesAbove, Bool.and_eq_true, decide_eq_true_eq] at h
    simp only [Memory.write]
    split
    · rename_i hak
      simp [Memory.risesAbove, hlo, hak, h.2]
    · split
      · rename_i hak
        subst hak
        simp [Memory.risesAbove, hlo, h.2]
      · simp only [Memory.risesAbove, Bool.and_eq_true, decide_eq_true_eq]
        exact ⟨h.1, ih k (by omega) h.2⟩

/-- The canonical form is the strict rise of the addresses: no listed byte reads as "no value". -/
theorem Memory.wf_cons (k : Nat) (b : Byte) (m : Memory) :
    Memory.wf ((k, b) :: m) = Memory.risesAbove m k := by
  simp [Memory.wf]

/-- A write keeps the canonical form. -/
theorem Memory.wf_write (m : Memory) (a : Nat) (v : Byte) (h : Memory.wf m = true) :
    Memory.wf (Memory.write m a v) = true := by
  cases m with
  | nil => simp [Memory.write, Memory.wf, Memory.risesAbove]
  | cons c m =>
    obtain ⟨k, b⟩ := c
    rw [Memory.wf_cons] at h
    simp only [Memory.write]
    split
    · rename_i hak
      rw [Memory.wf_cons]
      simp [Memory.risesAbove, hak, h]
    · split
      · rename_i hak
        subst hak
        rw [Memory.wf_cons]
        exact h
      · rw [Memory.wf_cons]
        exact Memory.risesAbove_write m k a v (by omega) h

/-- A write inside the store keeps every listed address inside it. -/
theorem Memory.within_write (m : Memory) (size a : Nat) (v : Byte) (ha : a < size)
    (h : Memory.within m size = true) : Memory.within (Memory.write m a v) size = true := by
  induction m with
  | nil => simp [Memory.write, Memory.within, ha]
  | cons c m ih =>
    obtain ⟨k, b⟩ := c
    simp only [Memory.within, List.all_cons, Bool.and_eq_true, decide_eq_true_eq] at h ih
    simp only [Memory.write]
    split
    · simp only [Memory.within, List.all_cons, Bool.and_eq_true, decide_eq_true_eq]
      exact ⟨ha, h⟩
    · split
      · simp only [Memory.within, List.all_cons, Bool.and_eq_true, decide_eq_true_eq]
        exact ⟨ha, h.2⟩
      · simp only [Memory.within, List.all_cons, Bool.and_eq_true, decide_eq_true_eq]
        exact ⟨h.1, ih h.2⟩

end Sys2Proof.Machine
end

