-- ==== Sys2Proof/Laws/State.lean ====
section
/-! SUPPORT. What each update of State leaves in each field: one lemma per field per update, true by rfl. -/

namespace Sys2Proof.Machine

section
variable (s : State)

@[simp] theorem State.setBank_params (c : BankConfig) : (s.setBank c).params = s.params := rfl
@[simp] theorem State.setBank_cfg (c : BankConfig) : (s.setBank c).cfg = c := rfl
@[simp] theorem State.setBank_tt (c : BankConfig) : (s.setBank c).tt = recompute s.params c := rfl
@[simp] theorem State.setBank_phys (c : BankConfig) : (s.setBank c).phys = s.phys := rfl
@[simp] theorem State.setBank_dreg0 (c : BankConfig) : (s.setBank c).dreg0 = s.dreg0 := rfl
@[simp] theorem State.setBank_dreg1 (c : BankConfig) : (s.setBank c).dreg1 = s.dreg1 := rfl
@[simp] theorem State.setBank_dreg2 (c : BankConfig) : (s.setBank c).dreg2 = s.dreg2 := rfl
@[simp] theorem State.setBank_busy (c : BankConfig) : (s.setBank c).busy = s.busy := rfl
@[simp] theorem State.setBank_chainCont (c : BankConfig) : (s.setBank c).chainCont = s.chainCont := rfl
@[simp] theorem State.setBank_phase (c : BankConfig) : (s.setBank c).phase = s.phase := rfl
@[simp] theorem State.setBank_lp (c : BankConfig) : (s.setBank c).lp = s.lp := rfl
@[simp] theorem State.setBank_cur (c : BankConfig) : (s.setBank c).cur = s.cur := rfl
@[simp] theorem State.setBank_remaining (c : BankConfig) : (s.setBank c).remaining = s.remaining := rfl
@[simp] theorem State.setBank_srcCur (c : BankConfig) : (s.setBank c).srcCur = s.srcCur := rfl
@[simp] theorem State.setBank_tgtCur (c : BankConfig) : (s.setBank c).tgtCur = s.tgtCur := rfl
@[simp] theorem State.setBank_iterCount (c : BankConfig) : (s.setBank c).iterCount = s.iterCount := rfl
@[simp] theorem State.setBank_halted (c : BankConfig) : (s.setBank c).halted = s.halted := rfl
@[simp] theorem State.setBank_log (c : BankConfig) : (s.setBank c).log = s.log := rfl
@[simp] theorem State.setBank_ioTrace (c : BankConfig) : (s.setBank c).ioTrace = s.ioTrace := rfl
@[simp] theorem State.setBank_draws (c : BankConfig) : (s.setBank c).draws = s.draws := rfl
@[simp] theorem State.setBank_result (c : BankConfig) : (s.setBank c).result = s.result := rfl
@[simp] theorem State.setBank_inputs (c : BankConfig) : (s.setBank c).inputs = s.inputs := rfl
@[simp] theorem State.setBank_credit (c : BankConfig) : (s.setBank c).credit = s.credit := rfl

@[simp] theorem State.setPhys_params (m : Memory) : (s.setPhys m).params = s.params := rfl
@[simp] theorem State.setPhys_cfg (m : Memory) : (s.setPhys m).cfg = s.cfg := rfl
@[simp] theorem State.setPhys_tt (m : Memory) : (s.setPhys m).tt = s.tt := rfl
@[simp] theorem State.setPhys_phys (m : Memory) : (s.setPhys m).phys = m := rfl
@[simp] theorem State.setPhys_dreg0 (m : Memory) : (s.setPhys m).dreg0 = s.dreg0 := rfl
@[simp] theorem State.setPhys_dreg1 (m : Memory) : (s.setPhys m).dreg1 = s.dreg1 := rfl
@[simp] theorem State.setPhys_dreg2 (m : Memory) : (s.setPhys m).dreg2 = s.dreg2 := rfl
@[simp] theorem State.setPhys_busy (m : Memory) : (s.setPhys m).busy = s.busy := rfl
@[simp] theorem State.setPhys_chainCont (m : Memory) : (s.setPhys m).chainCont = s.chainCont := rfl
@[simp] theorem State.setPhys_phase (m : Memory) : (s.setPhys m).phase = s.phase := rfl
@[simp] theorem State.setPhys_lp (m : Memory) : (s.setPhys m).lp = s.lp := rfl
@[simp] theorem State.setPhys_cur (m : Memory) : (s.setPhys m).cur = s.cur := rfl
@[simp] theorem State.setPhys_remaining (m : Memory) : (s.setPhys m).remaining = s.remaining := rfl
@[simp] theorem State.setPhys_srcCur (m : Memory) : (s.setPhys m).srcCur = s.srcCur := rfl
@[simp] theorem State.setPhys_tgtCur (m : Memory) : (s.setPhys m).tgtCur = s.tgtCur := rfl
@[simp] theorem State.setPhys_iterCount (m : Memory) : (s.setPhys m).iterCount = s.iterCount := rfl
@[simp] theorem State.setPhys_halted (m : Memory) : (s.setPhys m).halted = s.halted := rfl
@[simp] theorem State.setPhys_log (m : Memory) : (s.setPhys m).log = s.log := rfl
@[simp] theorem State.setPhys_ioTrace (m : Memory) : (s.setPhys m).ioTrace = s.ioTrace := rfl
@[simp] theorem State.setPhys_draws (m : Memory) : (s.setPhys m).draws = s.draws := rfl
@[simp] theorem State.setPhys_result (m : Memory) : (s.setPhys m).result = s.result := rfl
@[simp] theorem State.setPhys_inputs (m : Memory) : (s.setPhys m).inputs = s.inputs := rfl
@[simp] theorem State.setPhys_credit (m : Memory) : (s.setPhys m).credit = s.credit := rfl

@[simp] theorem State.setDreg0_params (v : Byte) : (s.setDreg0 v).params = s.params := rfl
@[simp] theorem State.setDreg0_cfg (v : Byte) : (s.setDreg0 v).cfg = s.cfg := rfl
@[simp] theorem State.setDreg0_tt (v : Byte) : (s.setDreg0 v).tt = s.tt := rfl
@[simp] theorem State.setDreg0_phys (v : Byte) : (s.setDreg0 v).phys = s.phys := rfl
@[simp] theorem State.setDreg0_dreg0 (v : Byte) : (s.setDreg0 v).dreg0 = v := rfl
@[simp] theorem State.setDreg0_dreg1 (v : Byte) : (s.setDreg0 v).dreg1 = s.dreg1 := rfl
@[simp] theorem State.setDreg0_dreg2 (v : Byte) : (s.setDreg0 v).dreg2 = s.dreg2 := rfl
@[simp] theorem State.setDreg0_busy (v : Byte) : (s.setDreg0 v).busy = s.busy := rfl
@[simp] theorem State.setDreg0_chainCont (v : Byte) : (s.setDreg0 v).chainCont = s.chainCont := rfl
@[simp] theorem State.setDreg0_phase (v : Byte) : (s.setDreg0 v).phase = s.phase := rfl
@[simp] theorem State.setDreg0_lp (v : Byte) : (s.setDreg0 v).lp = s.lp := rfl
@[simp] theorem State.setDreg0_cur (v : Byte) : (s.setDreg0 v).cur = s.cur := rfl
@[simp] theorem State.setDreg0_remaining (v : Byte) : (s.setDreg0 v).remaining = s.remaining := rfl
@[simp] theorem State.setDreg0_srcCur (v : Byte) : (s.setDreg0 v).srcCur = s.srcCur := rfl
@[simp] theorem State.setDreg0_tgtCur (v : Byte) : (s.setDreg0 v).tgtCur = s.tgtCur := rfl
@[simp] theorem State.setDreg0_iterCount (v : Byte) : (s.setDreg0 v).iterCount = s.iterCount := rfl
@[simp] theorem State.setDreg0_halted (v : Byte) : (s.setDreg0 v).halted = s.halted := rfl
@[simp] theorem State.setDreg0_log (v : Byte) : (s.setDreg0 v).log = s.log := rfl
@[simp] theorem State.setDreg0_ioTrace (v : Byte) : (s.setDreg0 v).ioTrace = s.ioTrace := rfl
@[simp] theorem State.setDreg0_draws (v : Byte) : (s.setDreg0 v).draws = s.draws := rfl
@[simp] theorem State.setDreg0_result (v : Byte) : (s.setDreg0 v).result = s.result := rfl
@[simp] theorem State.setDreg0_inputs (v : Byte) : (s.setDreg0 v).inputs = s.inputs := rfl
@[simp] theorem State.setDreg0_credit (v : Byte) : (s.setDreg0 v).credit = s.credit := rfl

@[simp] theorem State.setDreg1_params (v : Byte) : (s.setDreg1 v).params = s.params := rfl
@[simp] theorem State.setDreg1_cfg (v : Byte) : (s.setDreg1 v).cfg = s.cfg := rfl
@[simp] theorem State.setDreg1_tt (v : Byte) : (s.setDreg1 v).tt = s.tt := rfl
@[simp] theorem State.setDreg1_phys (v : Byte) : (s.setDreg1 v).phys = s.phys := rfl
@[simp] theorem State.setDreg1_dreg0 (v : Byte) : (s.setDreg1 v).dreg0 = s.dreg0 := rfl
@[simp] theorem State.setDreg1_dreg1 (v : Byte) : (s.setDreg1 v).dreg1 = v := rfl
@[simp] theorem State.setDreg1_dreg2 (v : Byte) : (s.setDreg1 v).dreg2 = s.dreg2 := rfl
@[simp] theorem State.setDreg1_busy (v : Byte) : (s.setDreg1 v).busy = s.busy := rfl
@[simp] theorem State.setDreg1_chainCont (v : Byte) : (s.setDreg1 v).chainCont = s.chainCont := rfl
@[simp] theorem State.setDreg1_phase (v : Byte) : (s.setDreg1 v).phase = s.phase := rfl
@[simp] theorem State.setDreg1_lp (v : Byte) : (s.setDreg1 v).lp = s.lp := rfl
@[simp] theorem State.setDreg1_cur (v : Byte) : (s.setDreg1 v).cur = s.cur := rfl
@[simp] theorem State.setDreg1_remaining (v : Byte) : (s.setDreg1 v).remaining = s.remaining := rfl
@[simp] theorem State.setDreg1_srcCur (v : Byte) : (s.setDreg1 v).srcCur = s.srcCur := rfl
@[simp] theorem State.setDreg1_tgtCur (v : Byte) : (s.setDreg1 v).tgtCur = s.tgtCur := rfl
@[simp] theorem State.setDreg1_iterCount (v : Byte) : (s.setDreg1 v).iterCount = s.iterCount := rfl
@[simp] theorem State.setDreg1_halted (v : Byte) : (s.setDreg1 v).halted = s.halted := rfl
@[simp] theorem State.setDreg1_log (v : Byte) : (s.setDreg1 v).log = s.log := rfl
@[simp] theorem State.setDreg1_ioTrace (v : Byte) : (s.setDreg1 v).ioTrace = s.ioTrace := rfl
@[simp] theorem State.setDreg1_draws (v : Byte) : (s.setDreg1 v).draws = s.draws := rfl
@[simp] theorem State.setDreg1_result (v : Byte) : (s.setDreg1 v).result = s.result := rfl
@[simp] theorem State.setDreg1_inputs (v : Byte) : (s.setDreg1 v).inputs = s.inputs := rfl
@[simp] theorem State.setDreg1_credit (v : Byte) : (s.setDreg1 v).credit = s.credit := rfl

@[simp] theorem State.setDreg2_params (v : Byte) : (s.setDreg2 v).params = s.params := rfl
@[simp] theorem State.setDreg2_cfg (v : Byte) : (s.setDreg2 v).cfg = s.cfg := rfl
@[simp] theorem State.setDreg2_tt (v : Byte) : (s.setDreg2 v).tt = s.tt := rfl
@[simp] theorem State.setDreg2_phys (v : Byte) : (s.setDreg2 v).phys = s.phys := rfl
@[simp] theorem State.setDreg2_dreg0 (v : Byte) : (s.setDreg2 v).dreg0 = s.dreg0 := rfl
@[simp] theorem State.setDreg2_dreg1 (v : Byte) : (s.setDreg2 v).dreg1 = s.dreg1 := rfl
@[simp] theorem State.setDreg2_dreg2 (v : Byte) : (s.setDreg2 v).dreg2 = v := rfl
@[simp] theorem State.setDreg2_busy (v : Byte) : (s.setDreg2 v).busy = s.busy := rfl
@[simp] theorem State.setDreg2_chainCont (v : Byte) : (s.setDreg2 v).chainCont = s.chainCont := rfl
@[simp] theorem State.setDreg2_phase (v : Byte) : (s.setDreg2 v).phase = s.phase := rfl
@[simp] theorem State.setDreg2_lp (v : Byte) : (s.setDreg2 v).lp = s.lp := rfl
@[simp] theorem State.setDreg2_cur (v : Byte) : (s.setDreg2 v).cur = s.cur := rfl
@[simp] theorem State.setDreg2_remaining (v : Byte) : (s.setDreg2 v).remaining = s.remaining := rfl
@[simp] theorem State.setDreg2_srcCur (v : Byte) : (s.setDreg2 v).srcCur = s.srcCur := rfl
@[simp] theorem State.setDreg2_tgtCur (v : Byte) : (s.setDreg2 v).tgtCur = s.tgtCur := rfl
@[simp] theorem State.setDreg2_iterCount (v : Byte) : (s.setDreg2 v).iterCount = s.iterCount := rfl
@[simp] theorem State.setDreg2_halted (v : Byte) : (s.setDreg2 v).halted = s.halted := rfl
@[simp] theorem State.setDreg2_log (v : Byte) : (s.setDreg2 v).log = s.log := rfl
@[simp] theorem State.setDreg2_ioTrace (v : Byte) : (s.setDreg2 v).ioTrace = s.ioTrace := rfl
@[simp] theorem State.setDreg2_draws (v : Byte) : (s.setDreg2 v).draws = s.draws := rfl
@[simp] theorem State.setDreg2_result (v : Byte) : (s.setDreg2 v).result = s.result := rfl
@[simp] theorem State.setDreg2_inputs (v : Byte) : (s.setDreg2 v).inputs = s.inputs := rfl
@[simp] theorem State.setDreg2_credit (v : Byte) : (s.setDreg2 v).credit = s.credit := rfl

@[simp] theorem State.setFlags_params (b k : Bool) (p : Phase) : (s.setFlags b k p).params = s.params := rfl
@[simp] theorem State.setFlags_cfg (b k : Bool) (p : Phase) : (s.setFlags b k p).cfg = s.cfg := rfl
@[simp] theorem State.setFlags_tt (b k : Bool) (p : Phase) : (s.setFlags b k p).tt = s.tt := rfl
@[simp] theorem State.setFlags_phys (b k : Bool) (p : Phase) : (s.setFlags b k p).phys = s.phys := rfl
@[simp] theorem State.setFlags_dreg0 (b k : Bool) (p : Phase) : (s.setFlags b k p).dreg0 = s.dreg0 := rfl
@[simp] theorem State.setFlags_dreg1 (b k : Bool) (p : Phase) : (s.setFlags b k p).dreg1 = s.dreg1 := rfl
@[simp] theorem State.setFlags_dreg2 (b k : Bool) (p : Phase) : (s.setFlags b k p).dreg2 = s.dreg2 := rfl
@[simp] theorem State.setFlags_busy (b k : Bool) (p : Phase) : (s.setFlags b k p).busy = b := rfl
@[simp] theorem State.setFlags_chainCont (b k : Bool) (p : Phase) : (s.setFlags b k p).chainCont = k := rfl
@[simp] theorem State.setFlags_phase (b k : Bool) (p : Phase) : (s.setFlags b k p).phase = p := rfl
@[simp] theorem State.setFlags_lp (b k : Bool) (p : Phase) : (s.setFlags b k p).lp = s.lp := rfl
@[simp] theorem State.setFlags_cur (b k : Bool) (p : Phase) : (s.setFlags b k p).cur = s.cur := rfl
@[simp] theorem State.setFlags_remaining (b k : Bool) (p : Phase) : (s.setFlags b k p).remaining = s.remaining := rfl
@[simp] theorem State.setFlags_srcCur (b k : Bool) (p : Phase) : (s.setFlags b k p).srcCur = s.srcCur := rfl
@[simp] theorem State.setFlags_tgtCur (b k : Bool) (p : Phase) : (s.setFlags b k p).tgtCur = s.tgtCur := rfl
@[simp] theorem State.setFlags_iterCount (b k : Bool) (p : Phase) : (s.setFlags b k p).iterCount = s.iterCount := rfl
@[simp] theorem State.setFlags_halted (b k : Bool) (p : Phase) : (s.setFlags b k p).halted = s.halted := rfl
@[simp] theorem State.setFlags_log (b k : Bool) (p : Phase) : (s.setFlags b k p).log = s.log := rfl
@[simp] theorem State.setFlags_ioTrace (b k : Bool) (p : Phase) : (s.setFlags b k p).ioTrace = s.ioTrace := rfl
@[simp] theorem State.setFlags_draws (b k : Bool) (p : Phase) : (s.setFlags b k p).draws = s.draws := rfl
@[simp] theorem State.setFlags_result (b k : Bool) (p : Phase) : (s.setFlags b k p).result = s.result := rfl
@[simp] theorem State.setFlags_inputs (b k : Bool) (p : Phase) : (s.setFlags b k p).inputs = s.inputs := rfl
@[simp] theorem State.setFlags_credit (b k : Bool) (p : Phase) : (s.setFlags b k p).credit = s.credit := rfl

@[simp] theorem State.setLp_params (n : Nat) : (s.setLp n).params = s.params := rfl
@[simp] theorem State.setLp_cfg (n : Nat) : (s.setLp n).cfg = s.cfg := rfl
@[simp] theorem State.setLp_tt (n : Nat) : (s.setLp n).tt = s.tt := rfl
@[simp] theorem State.setLp_phys (n : Nat) : (s.setLp n).phys = s.phys := rfl
@[simp] theorem State.setLp_dreg0 (n : Nat) : (s.setLp n).dreg0 = s.dreg0 := rfl
@[simp] theorem State.setLp_dreg1 (n : Nat) : (s.setLp n).dreg1 = s.dreg1 := rfl
@[simp] theorem State.setLp_dreg2 (n : Nat) : (s.setLp n).dreg2 = s.dreg2 := rfl
@[simp] theorem State.setLp_busy (n : Nat) : (s.setLp n).busy = s.busy := rfl
@[simp] theorem State.setLp_chainCont (n : Nat) : (s.setLp n).chainCont = s.chainCont := rfl
@[simp] theorem State.setLp_phase (n : Nat) : (s.setLp n).phase = s.phase := rfl
@[simp] theorem State.setLp_lp (n : Nat) : (s.setLp n).lp = n := rfl
@[simp] theorem State.setLp_cur (n : Nat) : (s.setLp n).cur = s.cur := rfl
@[simp] theorem State.setLp_remaining (n : Nat) : (s.setLp n).remaining = s.remaining := rfl
@[simp] theorem State.setLp_srcCur (n : Nat) : (s.setLp n).srcCur = s.srcCur := rfl
@[simp] theorem State.setLp_tgtCur (n : Nat) : (s.setLp n).tgtCur = s.tgtCur := rfl
@[simp] theorem State.setLp_iterCount (n : Nat) : (s.setLp n).iterCount = s.iterCount := rfl
@[simp] theorem State.setLp_halted (n : Nat) : (s.setLp n).halted = s.halted := rfl
@[simp] theorem State.setLp_log (n : Nat) : (s.setLp n).log = s.log := rfl
@[simp] theorem State.setLp_ioTrace (n : Nat) : (s.setLp n).ioTrace = s.ioTrace := rfl
@[simp] theorem State.setLp_draws (n : Nat) : (s.setLp n).draws = s.draws := rfl
@[simp] theorem State.setLp_result (n : Nat) : (s.setLp n).result = s.result := rfl
@[simp] theorem State.setLp_inputs (n : Nat) : (s.setLp n).inputs = s.inputs := rfl
@[simp] theorem State.setLp_credit (n : Nat) : (s.setLp n).credit = s.credit := rfl

@[simp] theorem State.setCur_params (d : Descriptor) : (s.setCur d).params = s.params := rfl
@[simp] theorem State.setCur_cfg (d : Descriptor) : (s.setCur d).cfg = s.cfg := rfl
@[simp] theorem State.setCur_tt (d : Descriptor) : (s.setCur d).tt = s.tt := rfl
@[simp] theorem State.setCur_phys (d : Descriptor) : (s.setCur d).phys = s.phys := rfl
@[simp] theorem State.setCur_dreg0 (d : Descriptor) : (s.setCur d).dreg0 = s.dreg0 := rfl
@[simp] theorem State.setCur_dreg1 (d : Descriptor) : (s.setCur d).dreg1 = s.dreg1 := rfl
@[simp] theorem State.setCur_dreg2 (d : Descriptor) : (s.setCur d).dreg2 = s.dreg2 := rfl
@[simp] theorem State.setCur_busy (d : Descriptor) : (s.setCur d).busy = s.busy := rfl
@[simp] theorem State.setCur_chainCont (d : Descriptor) : (s.setCur d).chainCont = s.chainCont := rfl
@[simp] theorem State.setCur_phase (d : Descriptor) : (s.setCur d).phase = s.phase := rfl
@[simp] theorem State.setCur_lp (d : Descriptor) : (s.setCur d).lp = s.lp := rfl
@[simp] theorem State.setCur_cur (d : Descriptor) : (s.setCur d).cur = d := rfl
@[simp] theorem State.setCur_remaining (d : Descriptor) : (s.setCur d).remaining = s.remaining := rfl
@[simp] theorem State.setCur_srcCur (d : Descriptor) : (s.setCur d).srcCur = s.srcCur := rfl
@[simp] theorem State.setCur_tgtCur (d : Descriptor) : (s.setCur d).tgtCur = s.tgtCur := rfl
@[simp] theorem State.setCur_iterCount (d : Descriptor) : (s.setCur d).iterCount = s.iterCount := rfl
@[simp] theorem State.setCur_halted (d : Descriptor) : (s.setCur d).halted = s.halted := rfl
@[simp] theorem State.setCur_log (d : Descriptor) : (s.setCur d).log = s.log := rfl
@[simp] theorem State.setCur_ioTrace (d : Descriptor) : (s.setCur d).ioTrace = s.ioTrace := rfl
@[simp] theorem State.setCur_draws (d : Descriptor) : (s.setCur d).draws = s.draws := rfl
@[simp] theorem State.setCur_result (d : Descriptor) : (s.setCur d).result = s.result := rfl
@[simp] theorem State.setCur_inputs (d : Descriptor) : (s.setCur d).inputs = s.inputs := rfl
@[simp] theorem State.setCur_credit (d : Descriptor) : (s.setCur d).credit = s.credit := rfl

@[simp] theorem State.setRemaining_params (n : Nat) : (s.setRemaining n).params = s.params := rfl
@[simp] theorem State.setRemaining_cfg (n : Nat) : (s.setRemaining n).cfg = s.cfg := rfl
@[simp] theorem State.setRemaining_tt (n : Nat) : (s.setRemaining n).tt = s.tt := rfl
@[simp] theorem State.setRemaining_phys (n : Nat) : (s.setRemaining n).phys = s.phys := rfl
@[simp] theorem State.setRemaining_dreg0 (n : Nat) : (s.setRemaining n).dreg0 = s.dreg0 := rfl
@[simp] theorem State.setRemaining_dreg1 (n : Nat) : (s.setRemaining n).dreg1 = s.dreg1 := rfl
@[simp] theorem State.setRemaining_dreg2 (n : Nat) : (s.setRemaining n).dreg2 = s.dreg2 := rfl
@[simp] theorem State.setRemaining_busy (n : Nat) : (s.setRemaining n).busy = s.busy := rfl
@[simp] theorem State.setRemaining_chainCont (n : Nat) : (s.setRemaining n).chainCont = s.chainCont := rfl
@[simp] theorem State.setRemaining_phase (n : Nat) : (s.setRemaining n).phase = s.phase := rfl
@[simp] theorem State.setRemaining_lp (n : Nat) : (s.setRemaining n).lp = s.lp := rfl
@[simp] theorem State.setRemaining_cur (n : Nat) : (s.setRemaining n).cur = s.cur := rfl
@[simp] theorem State.setRemaining_remaining (n : Nat) : (s.setRemaining n).remaining = n := rfl
@[simp] theorem State.setRemaining_srcCur (n : Nat) : (s.setRemaining n).srcCur = s.srcCur := rfl
@[simp] theorem State.setRemaining_tgtCur (n : Nat) : (s.setRemaining n).tgtCur = s.tgtCur := rfl
@[simp] theorem State.setRemaining_iterCount (n : Nat) : (s.setRemaining n).iterCount = s.iterCount := rfl
@[simp] theorem State.setRemaining_halted (n : Nat) : (s.setRemaining n).halted = s.halted := rfl
@[simp] theorem State.setRemaining_log (n : Nat) : (s.setRemaining n).log = s.log := rfl
@[simp] theorem State.setRemaining_ioTrace (n : Nat) : (s.setRemaining n).ioTrace = s.ioTrace := rfl
@[simp] theorem State.setRemaining_draws (n : Nat) : (s.setRemaining n).draws = s.draws := rfl
@[simp] theorem State.setRemaining_result (n : Nat) : (s.setRemaining n).result = s.result := rfl
@[simp] theorem State.setRemaining_inputs (n : Nat) : (s.setRemaining n).inputs = s.inputs := rfl
@[simp] theorem State.setRemaining_credit (n : Nat) : (s.setRemaining n).credit = s.credit := rfl

@[simp] theorem State.setCursors_params (x y : Addr20) : (s.setCursors x y).params = s.params := rfl
@[simp] theorem State.setCursors_cfg (x y : Addr20) : (s.setCursors x y).cfg = s.cfg := rfl
@[simp] theorem State.setCursors_tt (x y : Addr20) : (s.setCursors x y).tt = s.tt := rfl
@[simp] theorem State.setCursors_phys (x y : Addr20) : (s.setCursors x y).phys = s.phys := rfl
@[simp] theorem State.setCursors_dreg0 (x y : Addr20) : (s.setCursors x y).dreg0 = s.dreg0 := rfl
@[simp] theorem State.setCursors_dreg1 (x y : Addr20) : (s.setCursors x y).dreg1 = s.dreg1 := rfl
@[simp] theorem State.setCursors_dreg2 (x y : Addr20) : (s.setCursors x y).dreg2 = s.dreg2 := rfl
@[simp] theorem State.setCursors_busy (x y : Addr20) : (s.setCursors x y).busy = s.busy := rfl
@[simp] theorem State.setCursors_chainCont (x y : Addr20) : (s.setCursors x y).chainCont = s.chainCont := rfl
@[simp] theorem State.setCursors_phase (x y : Addr20) : (s.setCursors x y).phase = s.phase := rfl
@[simp] theorem State.setCursors_lp (x y : Addr20) : (s.setCursors x y).lp = s.lp := rfl
@[simp] theorem State.setCursors_cur (x y : Addr20) : (s.setCursors x y).cur = s.cur := rfl
@[simp] theorem State.setCursors_remaining (x y : Addr20) : (s.setCursors x y).remaining = s.remaining := rfl
@[simp] theorem State.setCursors_srcCur (x y : Addr20) : (s.setCursors x y).srcCur = x := rfl
@[simp] theorem State.setCursors_tgtCur (x y : Addr20) : (s.setCursors x y).tgtCur = y := rfl
@[simp] theorem State.setCursors_iterCount (x y : Addr20) : (s.setCursors x y).iterCount = s.iterCount := rfl
@[simp] theorem State.setCursors_halted (x y : Addr20) : (s.setCursors x y).halted = s.halted := rfl
@[simp] theorem State.setCursors_log (x y : Addr20) : (s.setCursors x y).log = s.log := rfl
@[simp] theorem State.setCursors_ioTrace (x y : Addr20) : (s.setCursors x y).ioTrace = s.ioTrace := rfl
@[simp] theorem State.setCursors_draws (x y : Addr20) : (s.setCursors x y).draws = s.draws := rfl
@[simp] theorem State.setCursors_result (x y : Addr20) : (s.setCursors x y).result = s.result := rfl
@[simp] theorem State.setCursors_inputs (x y : Addr20) : (s.setCursors x y).inputs = s.inputs := rfl
@[simp] theorem State.setCursors_credit (x y : Addr20) : (s.setCursors x y).credit = s.credit := rfl

@[simp] theorem State.setIter_params (n : Nat) : (s.setIter n).params = s.params := rfl
@[simp] theorem State.setIter_cfg (n : Nat) : (s.setIter n).cfg = s.cfg := rfl
@[simp] theorem State.setIter_tt (n : Nat) : (s.setIter n).tt = s.tt := rfl
@[simp] theorem State.setIter_phys (n : Nat) : (s.setIter n).phys = s.phys := rfl
@[simp] theorem State.setIter_dreg0 (n : Nat) : (s.setIter n).dreg0 = s.dreg0 := rfl
@[simp] theorem State.setIter_dreg1 (n : Nat) : (s.setIter n).dreg1 = s.dreg1 := rfl
@[simp] theorem State.setIter_dreg2 (n : Nat) : (s.setIter n).dreg2 = s.dreg2 := rfl
@[simp] theorem State.setIter_busy (n : Nat) : (s.setIter n).busy = s.busy := rfl
@[simp] theorem State.setIter_chainCont (n : Nat) : (s.setIter n).chainCont = s.chainCont := rfl
@[simp] theorem State.setIter_phase (n : Nat) : (s.setIter n).phase = s.phase := rfl
@[simp] theorem State.setIter_lp (n : Nat) : (s.setIter n).lp = s.lp := rfl
@[simp] theorem State.setIter_cur (n : Nat) : (s.setIter n).cur = s.cur := rfl
@[simp] theorem State.setIter_remaining (n : Nat) : (s.setIter n).remaining = s.remaining := rfl
@[simp] theorem State.setIter_srcCur (n : Nat) : (s.setIter n).srcCur = s.srcCur := rfl
@[simp] theorem State.setIter_tgtCur (n : Nat) : (s.setIter n).tgtCur = s.tgtCur := rfl
@[simp] theorem State.setIter_iterCount (n : Nat) : (s.setIter n).iterCount = n := rfl
@[simp] theorem State.setIter_halted (n : Nat) : (s.setIter n).halted = s.halted := rfl
@[simp] theorem State.setIter_log (n : Nat) : (s.setIter n).log = s.log := rfl
@[simp] theorem State.setIter_ioTrace (n : Nat) : (s.setIter n).ioTrace = s.ioTrace := rfl
@[simp] theorem State.setIter_draws (n : Nat) : (s.setIter n).draws = s.draws := rfl
@[simp] theorem State.setIter_result (n : Nat) : (s.setIter n).result = s.result := rfl
@[simp] theorem State.setIter_inputs (n : Nat) : (s.setIter n).inputs = s.inputs := rfl
@[simp] theorem State.setIter_credit (n : Nat) : (s.setIter n).credit = s.credit := rfl

@[simp] theorem State.setHalted_params (h : Option Fatal) : (s.setHalted h).params = s.params := rfl
@[simp] theorem State.setHalted_cfg (h : Option Fatal) : (s.setHalted h).cfg = s.cfg := rfl
@[simp] theorem State.setHalted_tt (h : Option Fatal) : (s.setHalted h).tt = s.tt := rfl
@[simp] theorem State.setHalted_phys (h : Option Fatal) : (s.setHalted h).phys = s.phys := rfl
@[simp] theorem State.setHalted_dreg0 (h : Option Fatal) : (s.setHalted h).dreg0 = s.dreg0 := rfl
@[simp] theorem State.setHalted_dreg1 (h : Option Fatal) : (s.setHalted h).dreg1 = s.dreg1 := rfl
@[simp] theorem State.setHalted_dreg2 (h : Option Fatal) : (s.setHalted h).dreg2 = s.dreg2 := rfl
@[simp] theorem State.setHalted_busy (h : Option Fatal) : (s.setHalted h).busy = s.busy := rfl
@[simp] theorem State.setHalted_chainCont (h : Option Fatal) : (s.setHalted h).chainCont = s.chainCont := rfl
@[simp] theorem State.setHalted_phase (h : Option Fatal) : (s.setHalted h).phase = s.phase := rfl
@[simp] theorem State.setHalted_lp (h : Option Fatal) : (s.setHalted h).lp = s.lp := rfl
@[simp] theorem State.setHalted_cur (h : Option Fatal) : (s.setHalted h).cur = s.cur := rfl
@[simp] theorem State.setHalted_remaining (h : Option Fatal) : (s.setHalted h).remaining = s.remaining := rfl
@[simp] theorem State.setHalted_srcCur (h : Option Fatal) : (s.setHalted h).srcCur = s.srcCur := rfl
@[simp] theorem State.setHalted_tgtCur (h : Option Fatal) : (s.setHalted h).tgtCur = s.tgtCur := rfl
@[simp] theorem State.setHalted_iterCount (h : Option Fatal) : (s.setHalted h).iterCount = s.iterCount := rfl
@[simp] theorem State.setHalted_halted (h : Option Fatal) : (s.setHalted h).halted = h := rfl
@[simp] theorem State.setHalted_log (h : Option Fatal) : (s.setHalted h).log = s.log := rfl
@[simp] theorem State.setHalted_ioTrace (h : Option Fatal) : (s.setHalted h).ioTrace = s.ioTrace := rfl
@[simp] theorem State.setHalted_draws (h : Option Fatal) : (s.setHalted h).draws = s.draws := rfl
@[simp] theorem State.setHalted_result (h : Option Fatal) : (s.setHalted h).result = s.result := rfl
@[simp] theorem State.setHalted_inputs (h : Option Fatal) : (s.setHalted h).inputs = s.inputs := rfl
@[simp] theorem State.setHalted_credit (h : Option Fatal) : (s.setHalted h).credit = s.credit := rfl

@[simp] theorem State.pushLog_params (e : Event) : (s.pushLog e).params = s.params := rfl
@[simp] theorem State.pushLog_cfg (e : Event) : (s.pushLog e).cfg = s.cfg := rfl
@[simp] theorem State.pushLog_tt (e : Event) : (s.pushLog e).tt = s.tt := rfl
@[simp] theorem State.pushLog_phys (e : Event) : (s.pushLog e).phys = s.phys := rfl
@[simp] theorem State.pushLog_dreg0 (e : Event) : (s.pushLog e).dreg0 = s.dreg0 := rfl
@[simp] theorem State.pushLog_dreg1 (e : Event) : (s.pushLog e).dreg1 = s.dreg1 := rfl
@[simp] theorem State.pushLog_dreg2 (e : Event) : (s.pushLog e).dreg2 = s.dreg2 := rfl
@[simp] theorem State.pushLog_busy (e : Event) : (s.pushLog e).busy = s.busy := rfl
@[simp] theorem State.pushLog_chainCont (e : Event) : (s.pushLog e).chainCont = s.chainCont := rfl
@[simp] theorem State.pushLog_phase (e : Event) : (s.pushLog e).phase = s.phase := rfl
@[simp] theorem State.pushLog_lp (e : Event) : (s.pushLog e).lp = s.lp := rfl
@[simp] theorem State.pushLog_cur (e : Event) : (s.pushLog e).cur = s.cur := rfl
@[simp] theorem State.pushLog_remaining (e : Event) : (s.pushLog e).remaining = s.remaining := rfl
@[simp] theorem State.pushLog_srcCur (e : Event) : (s.pushLog e).srcCur = s.srcCur := rfl
@[simp] theorem State.pushLog_tgtCur (e : Event) : (s.pushLog e).tgtCur = s.tgtCur := rfl
@[simp] theorem State.pushLog_iterCount (e : Event) : (s.pushLog e).iterCount = s.iterCount := rfl
@[simp] theorem State.pushLog_halted (e : Event) : (s.pushLog e).halted = s.halted := rfl
@[simp] theorem State.pushLog_log (e : Event) : (s.pushLog e).log = e :: s.log := rfl
@[simp] theorem State.pushLog_ioTrace (e : Event) : (s.pushLog e).ioTrace = s.ioTrace := rfl
@[simp] theorem State.pushLog_draws (e : Event) : (s.pushLog e).draws = s.draws := rfl
@[simp] theorem State.pushLog_result (e : Event) : (s.pushLog e).result = s.result := rfl
@[simp] theorem State.pushLog_inputs (e : Event) : (s.pushLog e).inputs = s.inputs := rfl
@[simp] theorem State.pushLog_credit (e : Event) : (s.pushLog e).credit = s.credit := rfl

@[simp] theorem State.pushIo_params (x : IoAccess) : (s.pushIo x).params = s.params := rfl
@[simp] theorem State.pushIo_cfg (x : IoAccess) : (s.pushIo x).cfg = s.cfg := rfl
@[simp] theorem State.pushIo_tt (x : IoAccess) : (s.pushIo x).tt = s.tt := rfl
@[simp] theorem State.pushIo_phys (x : IoAccess) : (s.pushIo x).phys = s.phys := rfl
@[simp] theorem State.pushIo_dreg0 (x : IoAccess) : (s.pushIo x).dreg0 = s.dreg0 := rfl
@[simp] theorem State.pushIo_dreg1 (x : IoAccess) : (s.pushIo x).dreg1 = s.dreg1 := rfl
@[simp] theorem State.pushIo_dreg2 (x : IoAccess) : (s.pushIo x).dreg2 = s.dreg2 := rfl
@[simp] theorem State.pushIo_busy (x : IoAccess) : (s.pushIo x).busy = s.busy := rfl
@[simp] theorem State.pushIo_chainCont (x : IoAccess) : (s.pushIo x).chainCont = s.chainCont := rfl
@[simp] theorem State.pushIo_phase (x : IoAccess) : (s.pushIo x).phase = s.phase := rfl
@[simp] theorem State.pushIo_lp (x : IoAccess) : (s.pushIo x).lp = s.lp := rfl
@[simp] theorem State.pushIo_cur (x : IoAccess) : (s.pushIo x).cur = s.cur := rfl
@[simp] theorem State.pushIo_remaining (x : IoAccess) : (s.pushIo x).remaining = s.remaining := rfl
@[simp] theorem State.pushIo_srcCur (x : IoAccess) : (s.pushIo x).srcCur = s.srcCur := rfl
@[simp] theorem State.pushIo_tgtCur (x : IoAccess) : (s.pushIo x).tgtCur = s.tgtCur := rfl
@[simp] theorem State.pushIo_iterCount (x : IoAccess) : (s.pushIo x).iterCount = s.iterCount := rfl
@[simp] theorem State.pushIo_halted (x : IoAccess) : (s.pushIo x).halted = s.halted := rfl
@[simp] theorem State.pushIo_log (x : IoAccess) : (s.pushIo x).log = s.log := rfl
@[simp] theorem State.pushIo_ioTrace (x : IoAccess) : (s.pushIo x).ioTrace = x :: s.ioTrace := rfl
@[simp] theorem State.pushIo_draws (x : IoAccess) : (s.pushIo x).draws = s.draws := rfl
@[simp] theorem State.pushIo_result (x : IoAccess) : (s.pushIo x).result = s.result := rfl
@[simp] theorem State.pushIo_inputs (x : IoAccess) : (s.pushIo x).inputs = s.inputs := rfl
@[simp] theorem State.pushIo_credit (x : IoAccess) : (s.pushIo x).credit = s.credit := rfl

@[simp] theorem State.bumpDraws_params : s.bumpDraws.params = s.params := rfl
@[simp] theorem State.bumpDraws_cfg : s.bumpDraws.cfg = s.cfg := rfl
@[simp] theorem State.bumpDraws_tt : s.bumpDraws.tt = s.tt := rfl
@[simp] theorem State.bumpDraws_phys : s.bumpDraws.phys = s.phys := rfl
@[simp] theorem State.bumpDraws_dreg0 : s.bumpDraws.dreg0 = s.dreg0 := rfl
@[simp] theorem State.bumpDraws_dreg1 : s.bumpDraws.dreg1 = s.dreg1 := rfl
@[simp] theorem State.bumpDraws_dreg2 : s.bumpDraws.dreg2 = s.dreg2 := rfl
@[simp] theorem State.bumpDraws_busy : s.bumpDraws.busy = s.busy := rfl
@[simp] theorem State.bumpDraws_chainCont : s.bumpDraws.chainCont = s.chainCont := rfl
@[simp] theorem State.bumpDraws_phase : s.bumpDraws.phase = s.phase := rfl
@[simp] theorem State.bumpDraws_lp : s.bumpDraws.lp = s.lp := rfl
@[simp] theorem State.bumpDraws_cur : s.bumpDraws.cur = s.cur := rfl
@[simp] theorem State.bumpDraws_remaining : s.bumpDraws.remaining = s.remaining := rfl
@[simp] theorem State.bumpDraws_srcCur : s.bumpDraws.srcCur = s.srcCur := rfl
@[simp] theorem State.bumpDraws_tgtCur : s.bumpDraws.tgtCur = s.tgtCur := rfl
@[simp] theorem State.bumpDraws_iterCount : s.bumpDraws.iterCount = s.iterCount := rfl
@[simp] theorem State.bumpDraws_halted : s.bumpDraws.halted = s.halted := rfl
@[simp] theorem State.bumpDraws_log : s.bumpDraws.log = s.log := rfl
@[simp] theorem State.bumpDraws_ioTrace : s.bumpDraws.ioTrace = s.ioTrace := rfl
@[simp] theorem State.bumpDraws_draws : s.bumpDraws.draws = s.draws + 1 := rfl
@[simp] theorem State.bumpDraws_result : s.bumpDraws.result = s.result := rfl
@[simp] theorem State.bumpDraws_inputs : s.bumpDraws.inputs = s.inputs := rfl
@[simp] theorem State.bumpDraws_credit : s.bumpDraws.credit = s.credit := rfl

@[simp] theorem State.setResult_params (v : Byte) : (s.setResult v).params = s.params := rfl
@[simp] theorem State.setResult_cfg (v : Byte) : (s.setResult v).cfg = s.cfg := rfl
@[simp] theorem State.setResult_tt (v : Byte) : (s.setResult v).tt = s.tt := rfl
@[simp] theorem State.setResult_phys (v : Byte) : (s.setResult v).phys = s.phys := rfl
@[simp] theorem State.setResult_dreg0 (v : Byte) : (s.setResult v).dreg0 = s.dreg0 := rfl
@[simp] theorem State.setResult_dreg1 (v : Byte) : (s.setResult v).dreg1 = s.dreg1 := rfl
@[simp] theorem State.setResult_dreg2 (v : Byte) : (s.setResult v).dreg2 = s.dreg2 := rfl
@[simp] theorem State.setResult_busy (v : Byte) : (s.setResult v).busy = s.busy := rfl
@[simp] theorem State.setResult_chainCont (v : Byte) : (s.setResult v).chainCont = s.chainCont := rfl
@[simp] theorem State.setResult_phase (v : Byte) : (s.setResult v).phase = s.phase := rfl
@[simp] theorem State.setResult_lp (v : Byte) : (s.setResult v).lp = s.lp := rfl
@[simp] theorem State.setResult_cur (v : Byte) : (s.setResult v).cur = s.cur := rfl
@[simp] theorem State.setResult_remaining (v : Byte) : (s.setResult v).remaining = s.remaining := rfl
@[simp] theorem State.setResult_srcCur (v : Byte) : (s.setResult v).srcCur = s.srcCur := rfl
@[simp] theorem State.setResult_tgtCur (v : Byte) : (s.setResult v).tgtCur = s.tgtCur := rfl
@[simp] theorem State.setResult_iterCount (v : Byte) : (s.setResult v).iterCount = s.iterCount := rfl
@[simp] theorem State.setResult_halted (v : Byte) : (s.setResult v).halted = s.halted := rfl
@[simp] theorem State.setResult_log (v : Byte) : (s.setResult v).log = s.log := rfl
@[simp] theorem State.setResult_ioTrace (v : Byte) : (s.setResult v).ioTrace = s.ioTrace := rfl
@[simp] theorem State.setResult_draws (v : Byte) : (s.setResult v).draws = s.draws := rfl
@[simp] theorem State.setResult_result (v : Byte) : (s.setResult v).result = some v := rfl
@[simp] theorem State.setResult_inputs (v : Byte) : (s.setResult v).inputs = s.inputs := rfl
@[simp] theorem State.setResult_credit (v : Byte) : (s.setResult v).credit = s.credit := rfl

@[simp] theorem State.setSchedule_params (is : List Instr) (n : Nat) : (s.setSchedule is n).params = s.params := rfl
@[simp] theorem State.setSchedule_cfg (is : List Instr) (n : Nat) : (s.setSchedule is n).cfg = s.cfg := rfl
@[simp] theorem State.setSchedule_tt (is : List Instr) (n : Nat) : (s.setSchedule is n).tt = s.tt := rfl
@[simp] theorem State.setSchedule_phys (is : List Instr) (n : Nat) : (s.setSchedule is n).phys = s.phys := rfl
@[simp] theorem State.setSchedule_dreg0 (is : List Instr) (n : Nat) : (s.setSchedule is n).dreg0 = s.dreg0 := rfl
@[simp] theorem State.setSchedule_dreg1 (is : List Instr) (n : Nat) : (s.setSchedule is n).dreg1 = s.dreg1 := rfl
@[simp] theorem State.setSchedule_dreg2 (is : List Instr) (n : Nat) : (s.setSchedule is n).dreg2 = s.dreg2 := rfl
@[simp] theorem State.setSchedule_busy (is : List Instr) (n : Nat) : (s.setSchedule is n).busy = s.busy := rfl
@[simp] theorem State.setSchedule_chainCont (is : List Instr) (n : Nat) : (s.setSchedule is n).chainCont = s.chainCont := rfl
@[simp] theorem State.setSchedule_phase (is : List Instr) (n : Nat) : (s.setSchedule is n).phase = s.phase := rfl
@[simp] theorem State.setSchedule_lp (is : List Instr) (n : Nat) : (s.setSchedule is n).lp = s.lp := rfl
@[simp] theorem State.setSchedule_cur (is : List Instr) (n : Nat) : (s.setSchedule is n).cur = s.cur := rfl
@[simp] theorem State.setSchedule_remaining (is : List Instr) (n : Nat) : (s.setSchedule is n).remaining = s.remaining := rfl
@[simp] theorem State.setSchedule_srcCur (is : List Instr) (n : Nat) : (s.setSchedule is n).srcCur = s.srcCur := rfl
@[simp] theorem State.setSchedule_tgtCur (is : List Instr) (n : Nat) : (s.setSchedule is n).tgtCur = s.tgtCur := rfl
@[simp] theorem State.setSchedule_iterCount (is : List Instr) (n : Nat) : (s.setSchedule is n).iterCount = s.iterCount := rfl
@[simp] theorem State.setSchedule_halted (is : List Instr) (n : Nat) : (s.setSchedule is n).halted = s.halted := rfl
@[simp] theorem State.setSchedule_log (is : List Instr) (n : Nat) : (s.setSchedule is n).log = s.log := rfl
@[simp] theorem State.setSchedule_ioTrace (is : List Instr) (n : Nat) : (s.setSchedule is n).ioTrace = s.ioTrace := rfl
@[simp] theorem State.setSchedule_draws (is : List Instr) (n : Nat) : (s.setSchedule is n).draws = s.draws := rfl
@[simp] theorem State.setSchedule_result (is : List Instr) (n : Nat) : (s.setSchedule is n).result = s.result := rfl
@[simp] theorem State.setSchedule_inputs (is : List Instr) (n : Nat) : (s.setSchedule is n).inputs = is := rfl
@[simp] theorem State.setSchedule_credit (is : List Instr) (n : Nat) : (s.setSchedule is n).credit = n := rfl

end

end Sys2Proof.Machine
end

