-- ==== Sys2Proof/Laws/Ops.lean ====
section
/-! SUPPORT. One lemma per shared operation, saying once what it can do. -/

namespace Sys2Proof.Machine

/-! ### Outcomes -/

@[simp] theorem raiseFatal_eq (f : Fatal) (s : State) : raiseFatal f s = .next (s.setHalted (some f)) := rfl

/-- A running block runs the operation. -/
@[simp] theorem whenRunning_running {s : State} (k : State → Out) (h : s.halted = none) : whenRunning s k = k s := by
  simp [whenRunning, h]

/-- A halted block answers the fault (R249). -/
theorem whenRunning_halted {s : State} {f : Fatal} (k : State → Out) (h : s.halted = some f) :
    whenRunning s k = .fault (.halted f) := by
  simp [whenRunning, h]

/-- When an operation that needs a running block answers a next state. -/
theorem whenRunning_next {s t : State} {k : State → Out} :
    whenRunning s k = .next t ↔ s.halted = none ∧ k s = .next t := by
  cases h : s.halted <;> simp [whenRunning, h]

@[simp] theorem andThen_refused (r : Refusal) (k : State → Out) : andThen (.refused r) k = .refused r := rfl

@[simp] theorem andThen_fault (f : Fault) (k : State → Out) : andThen (.fault f) k = .fault f := rfl

/-- The next line runs when nothing has been raised. -/
@[simp] theorem andThen_running {s : State} (k : State → Out) (h : s.halted = none) : andThen (.next s) k = k s := by
  simp [andThen, h]

/-- Everything a sequence can answer as a next state: it went on, or it was stopped by a fatal condition (R248). -/
theorem andThen_next {o : Out} {k : State → Out} {t : State} :
    andThen o k = .next t ↔
      ∃ u, o = .next u ∧ ((u.halted = none ∧ k u = .next t) ∨ (u.halted ≠ none ∧ t = u)) := by
  cases o with
  | next u =>
    cases h : u.halted <;> simp [andThen, h, eq_comm]
  | fault f => simp
  | refused r => simp

/-! ### PhysicalStore -/

theorem physSize_pos (p : Params) : 0 < p.physSize := Nat.two_pow_pos _

theorem wrapPhys_lt (p : Params) (pa : Nat) : wrapPhys p pa < p.physSize := Nat.mod_lt _ (physSize_pos p)

/-- A reduced address is its own reduction. -/
@[simp] theorem wrapPhys_wrapPhys (p : Params) (pa : Nat) : wrapPhys p (wrapPhys p pa) = wrapPhys p pa :=
  Nat.mod_eq_of_lt (wrapPhys_lt p pa)

theorem wrapPhys_of_lt (p : Params) (pa : Nat) (h : pa < p.physSize) : wrapPhys p pa = pa := Nat.mod_eq_of_lt h

/-- A 20-bit address is reduced to itself in every variant. -/
theorem wrapPhys_addr20 (p : Params) (a : Addr20) : wrapPhys p a.toNat = a.toNat := by
  apply wrapPhys_of_lt
  have h1 : (2 : Nat) ^ 20 ≤ 2 ^ p.paBits := Nat.pow_le_pow_right (by omega) (by simp [Params.paBits])
  have h2 := a.isLt
  simp only [Params.physSize]
  omega

/-- `PhysRead` depends on the parameters and PhysicalStore alone (R61). -/
theorem physRead_congr {s t : State} (hp : s.params = t.params) (hm : s.phys = t.phys) (pa : Nat) :
    physRead s pa = physRead t pa := by
  simp [physRead, hp, hm]

/-- Everything `PhysWrite` can do (R62): it writes PhysicalStore alone, at most one byte, and keeps the canonical
form. -/
theorem physWrite_spec (pa : Nat) (v : Byte) (s : State) :
    ∃ m, physWrite pa v s = s.setPhys m
      ∧ (∀ a, Memory.read m a =
          if wrapPhys s.params pa = a ∧ writableAt s.params (wrapPhys s.params pa) = true then some v
          else Memory.read s.phys a)
      ∧ (Memory.wf s.phys = true → Memory.wf m = true)
      ∧ (Memory.within s.phys s.params.physSize = true → Memory.within m s.params.physSize = true) := by
  cases h : writableAt s.params (wrapPhys s.params pa) with
  | true =>
    refine ⟨Memory.write s.phys (wrapPhys s.params pa) v, by simp [physWrite, h], fun a => ?_, Memory.wf_write _ _ _,
      Memory.within_write _ _ _ _ (wrapPhys_lt _ _)⟩
    simp [Memory.read_write]
  | false => exact ⟨s.phys, by simp [physWrite, h, State.setPhys], by simp, id, id⟩

/-- A write to a byte that is not writable changes nothing (R62). -/
theorem physWrite_discarded (pa : Nat) (v : Byte) (s : State)
    (h : writableAt s.params (wrapPhys s.params pa) = false) : physWrite pa v s = s := by
  simp [physWrite, h]

/-- The read of a byte after a write (R61, R62, R71). -/
theorem physRead_physWrite (pa qa : Nat) (v : Byte) (s : State) :
    physRead (physWrite pa v s) qa =
      if wrapPhys s.params pa = wrapPhys s.params qa ∧ writableAt s.params (wrapPhys s.params pa) = true then v
      else physRead s qa := by
  obtain ⟨m, hm, hr, -, -⟩ := physWrite_spec pa v s
  rw [hm]
  simp only [physRead, State.setPhys_phys, State.setPhys_params, hr]
  by_cases h : wrapPhys s.params pa = wrapPhys s.params qa ∧ writableAt s.params (wrapPhys s.params pa) = true
  · simp only [if_pos h]
  · simp only [if_neg h]

/-- A read depends on the reduced address alone (R29). -/
@[simp] theorem physRead_wrapPhys (s : State) (pa : Nat) : physRead s (wrapPhys s.params pa) = physRead s pa := by
  simp [physRead]

/-! ### Platform bindings -/

/-- A port's write changes BankConfig and rebuilds the table, and nothing else (R154 to R156). -/
theorem portWrite_eq (b : BankPort) (v : Byte) (s : State) : ∃ c : BankConfig, portWrite b v s = s.setBank c
    ∧ c.mapMask = s.cfg.mapMask ∧ c.mapOffsetLow = s.cfg.mapOffsetLow ∧ c.mapOffsetHigh = s.cfg.mapOffsetHigh
    ∧ c.mapMegabyteLow = s.cfg.mapMegabyteLow ∧ c.mapMegabyteHigh = s.cfg.mapMegabyteHigh := by
  cases b
  · exact ⟨{ s.cfg with cpuPortDdr := v }, rfl, rfl, rfl, rfl, rfl, rfl⟩
  · exact ⟨{ s.cfg with cpuPortData := v }, rfl, rfl, rfl, rfl, rfl, rfl⟩
  · exact ⟨{ s.cfg with romOverlayBits := v }, rfl, rfl, rfl, rfl, rfl, rfl⟩

/-- A bound byte is one whose write is not discarded (R62). -/
theorem memBindingAt_writable {p : Params} {a : Nat} {b : BankPort} (h : memBindingAt p a = some b) :
    writableAt p a = true := by
  unfold memBindingAt at h
  split at h
  · split at h
    · assumption
    · cases h
  · cases h

/-- A platform that binds no memory address has no bound byte. -/
@[simp] theorem memBindingAt_nil {p : Params} (h : p.memBindings = []) (a : Nat) : memBindingAt p a = none := by
  simp [memBindingAt, h]

/-- Everything a byte written to memory does (R62, D12): `PhysWrite`, then the port bound there, if one is. -/
theorem memStore_cases (pa : Nat) (v : Byte) (s : State) :
    (∃ b, memBindingAt s.params (wrapPhys s.params pa) = some b ∧ memStore pa v s = portWrite b v (physWrite pa v s))
    ∨ (memBindingAt s.params (wrapPhys s.params pa) = none ∧ memStore pa v s = physWrite pa v s) := by
  cases h : memBindingAt s.params (wrapPhys s.params pa) with
  | some b => exact .inl ⟨b, rfl, by simp [memStore, h]⟩
  | none => exact .inr ⟨rfl, by simp [memStore, h]⟩

/-- Where nothing is bound a byte written to memory is a `PhysWrite`. -/
theorem memStore_unbound (pa : Nat) (v : Byte) (s : State)
    (h : memBindingAt s.params (wrapPhys s.params pa) = none) : memStore pa v s = physWrite pa v s := by
  simp [memStore, h]

/-- A write to a byte that is not writable changes nothing, bound or not (R62). -/
theorem memStore_discarded (pa : Nat) (v : Byte) (s : State)
    (h : writableAt s.params (wrapPhys s.params pa) = false) : memStore pa v s = s := by
  obtain ⟨b, hb, -⟩ | ⟨-, k⟩ := memStore_cases pa v s
  · rw [memBindingAt_writable hb] at h
    cases h
  · rw [k, physWrite_discarded pa v s h]

/-- The stored byte is that of `PhysWrite`, whatever is bound. -/
@[simp] theorem memStore_phys (pa : Nat) (v : Byte) (s : State) : (memStore pa v s).phys = (physWrite pa v s).phys := by
  obtain ⟨b, -, k⟩ | ⟨-, k⟩ := memStore_cases pa v s
  · obtain ⟨c, hc, -⟩ := portWrite_eq b v (physWrite pa v s)
    rw [k, hc, State.setBank_phys]
  · rw [k]

/-! ### What an access may change -/

/-- `t` differs from `s` at most in what one access of the engine may change: PhysicalStore, BankConfig with its table,
DMA registers 1 and 2, the log, the I/O trace and the draw counter. -/
structure AccessFrame (s t : State) : Prop where
  params : t.params = s.params
  dreg0 : t.dreg0 = s.dreg0
  busy : t.busy = s.busy
  chainCont : t.chainCont = s.chainCont
  phase : t.phase = s.phase
  lp : t.lp = s.lp
  cur : t.cur = s.cur
  remaining : t.remaining = s.remaining
  srcCur : t.srcCur = s.srcCur
  tgtCur : t.tgtCur = s.tgtCur
  iterCount : t.iterCount = s.iterCount
  halted : t.halted = s.halted
  result : t.result = s.result
  inputs : t.inputs = s.inputs
  credit : t.credit = s.credit

theorem AccessFrame.rfl {s : State} : AccessFrame s s := by constructor <;> rfl

theorem AccessFrame.trans {s t u : State} (h : AccessFrame s t) (k : AccessFrame t u) : AccessFrame s u := by
  constructor
  · exact k.params.trans h.params
  · exact k.dreg0.trans h.dreg0
  · exact k.busy.trans h.busy
  · exact k.chainCont.trans h.chainCont
  · exact k.phase.trans h.phase
  · exact k.lp.trans h.lp
  · exact k.cur.trans h.cur
  · exact k.remaining.trans h.remaining
  · exact k.srcCur.trans h.srcCur
  · exact k.tgtCur.trans h.tgtCur
  · exact k.iterCount.trans h.iterCount
  · exact k.halted.trans h.halted
  · exact k.result.trans h.result
  · exact k.inputs.trans h.inputs
  · exact k.credit.trans h.credit

theorem AccessFrame.setPhys (s : State) (m : Memory) : AccessFrame s (s.setPhys m) := by constructor <;> rfl
theorem AccessFrame.setBank (s : State) (c : BankConfig) : AccessFrame s (s.setBank c) := by constructor <;> rfl
theorem AccessFrame.setDreg1 (s : State) (v : Byte) : AccessFrame s (s.setDreg1 v) := by constructor <;> rfl
theorem AccessFrame.setDreg2 (s : State) (v : Byte) : AccessFrame s (s.setDreg2 v) := by constructor <;> rfl
theorem AccessFrame.pushLog (s : State) (e : Event) : AccessFrame s (s.pushLog e) := by constructor <;> rfl
theorem AccessFrame.pushIo (s : State) (x : IoAccess) : AccessFrame s (s.pushIo x) := by constructor <;> rfl
theorem AccessFrame.bumpDraws (s : State) : AccessFrame s s.bumpDraws := by constructor <;> rfl

theorem physWrite_frame (pa : Nat) (v : Byte) (s : State) : AccessFrame s (physWrite pa v s) := by
  obtain ⟨m, h, -⟩ := physWrite_spec pa v s
  rw [h]
  exact .setPhys _ _

theorem memStore_frame (pa : Nat) (v : Byte) (s : State) : AccessFrame s (memStore pa v s) := by
  obtain ⟨b, -, k⟩ | ⟨-, k⟩ := memStore_cases pa v s
  · obtain ⟨c, hc, -⟩ := portWrite_eq b v (physWrite pa v s)
    rw [k, hc]
    exact (physWrite_frame pa v s).trans (.setBank _ _)
  · rw [k]
    exact physWrite_frame pa v s

/-- The read of a byte after a byte was written to memory (R61, R62, R71). -/
theorem physRead_memStore (pa qa : Nat) (v : Byte) (s : State) :
    physRead (memStore pa v s) qa =
      if wrapPhys s.params pa = wrapPhys s.params qa ∧ writableAt s.params (wrapPhys s.params pa) = true then v
      else physRead s qa := by
  rw [← physRead_physWrite]
  exact physRead_congr ((memStore_frame pa v s).params.trans (physWrite_frame pa v s).params.symm)
    (memStore_phys pa v s) qa

/-! ### The IoDispatcher seam -/

/-- Everything `IoRead` can do (R63): a DMA register, the fallback byte, or a draw. -/
theorem ioRead_cases (a : CpuAddr) (s : State) :
    (∃ i, regIndex s.params a = some i
        ∧ ioRead a s = (dmaRegRead i s, s.pushIo (.read a (dmaRegRead i s))))
    ∨ (regIndex s.params a = none ∧ unimplementedAt s.params a = true
        ∧ ioRead a s = (s.params.ioFallback, (s.pushLog (.unimplementedIo a)).pushIo (.read a s.params.ioFallback)))
    ∨ (regIndex s.params a = none ∧ unimplementedAt s.params a = false
        ∧ ∃ v, ioRead a s = (v, s.bumpDraws.pushIo (.read a v))) := by
  cases h : regIndex s.params a with
  | some i => exact .inl ⟨i, rfl, by simp [ioRead, h]⟩
  | none =>
    cases k : unimplementedAt s.params a with
    | true => exact .inr (.inl ⟨rfl, rfl, by simp [ioRead, h, k]⟩)
    | false => exact .inr (.inr ⟨rfl, rfl, Config.ioByte s.draws a, by simp [ioRead, h, k]⟩)

/-- An `IoRead` writes the log, the trace and the draw counter at most. -/
theorem ioRead_eq (a : CpuAddr) (s : State) :
    ∃ (log : List Event) (draws : Nat),
      (ioRead a s).2 = { s with log := log, draws := draws, ioTrace := .read a (ioRead a s).1 :: s.ioTrace } := by
  obtain ⟨i, -, h⟩ | ⟨-, -, h⟩ | ⟨-, -, v, h⟩ := ioRead_cases a s
  · exact ⟨s.log, s.draws, by rw [h]; rfl⟩
  · exact ⟨.unimplementedIo a :: s.log, s.draws, by rw [h]; rfl⟩
  · exact ⟨s.log, s.draws + 1, by rw [h]; rfl⟩

theorem ioRead_frame (a : CpuAddr) (s : State) : AccessFrame s (ioRead a s).2 := by
  obtain ⟨log, draws, h⟩ := ioRead_eq a s
  rw [h]
  constructor <;> rfl

/-- Everything an `IoWrite` outside the DMA registers can do (R63). -/
theorem ioWriteOther_cases (a : CpuAddr) (v : Byte) (s : State) :
    (bindingAt s.params a = some .ddr ∧ ioWriteOther a v s = writePortDdr v s)
    ∨ (bindingAt s.params a = some .data ∧ ioWriteOther a v s = writePortData v s)
    ∨ (bindingAt s.params a = some .overlay ∧ ioWriteOther a v s = writeOverlay v s)
    ∨ (bindingAt s.params a = none ∧ unimplementedAt s.params a = true
        ∧ ioWriteOther a v s = s.pushLog (.unimplementedIo a))
    ∨ (bindingAt s.params a = none ∧ unimplementedAt s.params a = false ∧ ioWriteOther a v s = s) := by
  cases h : bindingAt s.params a with
  | some b => cases b <;> simp [ioWriteOther, portWrite, h]
  | none => cases k : unimplementedAt s.params a <;> simp [ioWriteOther, h, k]

theorem ioWriteOther_frame (a : CpuAddr) (v : Byte) (s : State) : AccessFrame s (ioWriteOther a v s) := by
  obtain ⟨-, h⟩ | ⟨-, h⟩ | ⟨-, h⟩ | ⟨-, -, h⟩ | ⟨-, -, h⟩ := ioWriteOther_cases a v s <;> rw [h]
  · exact .setBank _ _
  · exact .setBank _ _
  · exact .setBank _ _
  · exact .pushLog _ _
  · exact .rfl

theorem regIndex_values (i : BitVec 2) : i = 0 ∨ i = 1 ∨ i = 2 ∨ i = 3 := by revert i; decide

/-- The storage of each DMA register (R180, R181). -/
theorem dmaRegStore_cases (i : BitVec 2) (v : Byte) (s : State) :
    (i = 0 ∧ dmaRegStore i v s = s.setDreg0 v) ∨ (i = 1 ∧ dmaRegStore i v s = s.setDreg1 v)
    ∨ (i = 2 ∧ dmaRegStore i v s = s.setDreg2 v) ∨ (i = 3 ∧ dmaRegStore i v s = s) := by
  obtain rfl | rfl | rfl | rfl := regIndex_values i <;> simp [dmaRegStore]

/-- Everything the engine's `IoWrite` can do (R63, R191). -/
theorem ioWriteEngine_cases (a : CpuAddr) (v : Byte) (s : State) :
    (regIndex s.params a = some 0 ∧ ioWriteEngine a v s = .refused .nestedDmaStart)
    ∨ (regIndex s.params a = some 1 ∧ ioWriteEngine a v s = .next ((s.pushIo (.write a v)).setDreg1 v))
    ∨ (regIndex s.params a = some 2 ∧ ioWriteEngine a v s = .next ((s.pushIo (.write a v)).setDreg2 v))
    ∨ (regIndex s.params a = some 3 ∧ ioWriteEngine a v s = .next (s.pushIo (.write a v)))
    ∨ (regIndex s.params a = none ∧ ioWriteEngine a v s = .next (ioWriteOther a v (s.pushIo (.write a v)))) := by
  cases h : regIndex s.params a with
  | none => simp [ioWriteEngine, h]
  | some i =>
    obtain rfl | rfl | rfl | rfl := regIndex_values i <;> simp [ioWriteEngine, h, dmaRegStore]

theorem ioWriteEngine_frame {a : CpuAddr} {v : Byte} {s t : State} (h : ioWriteEngine a v s = .next t) :
    AccessFrame s t := by
  obtain ⟨-, k⟩ | ⟨-, k⟩ | ⟨-, k⟩ | ⟨-, k⟩ | ⟨-, k⟩ := ioWriteEngine_cases a v s <;> rw [k] at h <;> cases h
  · exact (AccessFrame.pushIo s _).trans (.setDreg1 _ _)
  · exact (AccessFrame.pushIo s _).trans (.setDreg2 _ _)
  · exact .pushIo s _
  · exact (AccessFrame.pushIo s _).trans (ioWriteOther_frame _ _ _)

/-! ### The fetch and Reset -/

/-- The latch of a side writes that side of `cur` and its cursor (R187). -/
theorem latchSide_src (a : Addr3) (s : State) :
    latchSide .src a s = { s with cur := { s.cur with src := sideLatch a }, srcCur := a.addr } := rfl

theorem latchSide_tgt (a : Addr3) (s : State) :
    latchSide .tgt a s = { s with cur := { s.cur with tgt := sideLatch a }, tgtCur := a.addr } := rfl

/-- Everything the latch of a descriptor does (R187), field by field. -/
theorem latchDescriptor_eq (d : Desc11) (s : State) :
    latchDescriptor d s =
      { s with
        cur := ⟨d.command, d.length, sideLatch d.source, sideLatch d.target, d.modulo, subcmdAt s⟩
        remaining := countOf d.length
        srcCur := d.source.addr
        tgtCur := d.target.addr
        lp := wrapPhys s.params (s.lp + s.params.descLen)
        chainCont := false
        phase := .execute } := by
  simp only [latchDescriptor, latchSide_src, latchSide_tgt, State.setCur, State.setRemaining, State.setLp,
    State.setFlags]

/-- Everything the fetch does (R187), field by field. -/
theorem fetchDescriptor_eq (s : State) :
    fetchDescriptor s =
      { s with
        cur := ⟨(descriptorAt s).command, (descriptorAt s).length, sideLatch (descriptorAt s).source,
          sideLatch (descriptorAt s).target, (descriptorAt s).modulo, subcmdAt s⟩
        remaining := countOf (descriptorAt s).length
        srcCur := (descriptorAt s).source.addr
        tgtCur := (descriptorAt s).target.addr
        lp := wrapPhys s.params (s.lp + s.params.descLen)
        chainCont := false
        phase := .execute } := latchDescriptor_eq _ _

/-- The bytes at `lp` decode to the descriptor the fetch latches (R101, R187). -/
theorem decode_descriptorBytes (ops : OpSet) (s : State) :
    decode ops .desc11 (descriptorBytes s) = .ok (.desc11 (descriptorAt s)) [] := rfl

/-- Completion (R189): back to Fetch, or idle. -/
theorem complete_cases (chained : Bool) (s : State) :
    (chained = true ∧ complete chained s = s.setFlags s.busy true .fetch)
    ∨ (chained = false ∧ complete chained s = s.setFlags false false s.phase) := by
  cases chained <;> simp [complete]

/-- A count is 1 to 65536 (R107). -/
theorem countOf_pos (l : BitVec 16) : 1 ≤ countOf l ∧ countOf l ≤ 65536 := by
  have := l.isLt
  unfold countOf
  split
  · omega
  · rename_i h
    have : l.toNat ≠ 0 := fun k => h (BitVec.eq_of_toNat_eq (by simpa using k))
    omega

section
variable (s : State)
@[simp] theorem resetOp_params : (resetOp s).params = s.params := rfl
@[simp] theorem resetOp_cfg : (resetOp s).cfg = resetBank := rfl
@[simp] theorem resetOp_tt : (resetOp s).tt = recompute s.params resetBank := rfl
@[simp] theorem resetOp_phys : (resetOp s).phys = s.phys := rfl
@[simp] theorem resetOp_busy : (resetOp s).busy = false := rfl
@[simp] theorem resetOp_chainCont : (resetOp s).chainCont = false := rfl
@[simp] theorem resetOp_iterCount : (resetOp s).iterCount = 0 := rfl
@[simp] theorem resetOp_halted : (resetOp s).halted = none := rfl
@[simp] theorem resetOp_log : (resetOp s).log = s.log := rfl
@[simp] theorem resetOp_ioTrace : (resetOp s).ioTrace = s.ioTrace := rfl
@[simp] theorem resetOp_result : (resetOp s).result = s.result := rfl
@[simp] theorem resetOp_inputs : (resetOp s).inputs = s.inputs := rfl
@[simp] theorem resetOp_credit : (resetOp s).credit = s.credit := rfl
end

end Sys2Proof.Machine
end

