-- ==== Sys2Proof/Laws/Engine.lean ====
section
/-! SUPPORT. What one engine call can do (R185 to R189), and the principle that carries a property through a drain and a
start (R182). -/

namespace Sys2Proof.Machine

/-! ### Accesses and byte operations -/

theorem dmaRead_frame (n : SideName) (s : State) : AccessFrame s (dmaRead n s).2 := by
  unfold dmaRead
  split
  · exact ioRead_frame _ _
  · exact .rfl

/-- A memory side is read without effect (R65). -/
theorem dmaRead_mem (n : SideName) (s : State) (h : (sideOf s n).io = false) :
    dmaRead n s = (physRead s (physAddrOf (sideOf s n) (cursorOf s n)), s) := by
  simp [dmaRead, h]

/-- A memory side is written as the CPU writes memory (R65). -/
theorem dmaWrite_mem (n : SideName) (v : Byte) (s : State) (h : (sideOf s n).io = false) :
    dmaWrite n v s = .next (memStore (physAddrOf (sideOf s n) (cursorOf s n)) v s) := by
  simp [dmaWrite, h]

theorem dmaWrite_frame {n : SideName} {v : Byte} {s t : State} (h : dmaWrite n v s = .next t) : AccessFrame s t := by
  unfold dmaWrite at h
  split at h
  · exact ioWriteEngine_frame h
  · cases h
    exact memStore_frame _ _ _

theorem doCopy_frame {s t : State} (h : doCopy s = .next t) : AccessFrame s t :=
  (dmaRead_frame .src s).trans (dmaWrite_frame h)

theorem doMix_frame {c : CmdBits} {s t : State} (h : doMix c s = .next t) : AccessFrame s t :=
  ((dmaRead_frame .src s).trans (dmaRead_frame .tgt _)).trans (dmaWrite_frame h)

theorem doSwap_frame {s t : State} (h : doSwap s = .next t) : AccessFrame s t := by
  have hr := (dmaRead_frame .src s).trans (dmaRead_frame .tgt (dmaRead .src s).2)
  obtain ⟨u, hu, ⟨-, hk⟩ | ⟨-, rfl⟩⟩ := andThen_next.mp h
  · exact (hr.trans (dmaWrite_frame hu)).trans (dmaWrite_frame hk)
  · exact hr.trans (dmaWrite_frame hu)

theorem doFill_frame {s t : State} (h : doFill s = .next t) : AccessFrame s t := dmaWrite_frame h

theorem doUnknown_frame {v : BitVec 2} {s t : State} (h : doUnknown v s = .next t) : AccessFrame s t := by
  cases h
  exact .pushLog _ _

/-- The byte operation of a command (R210 to R214). -/
def bodyOf (op : Op) (c : CmdBits) : State → Out :=
  match op with
  | .copy => doCopy
  | .mix => doMix c
  | .swap => doSwap
  | .fill => doFill
  | .unknown v => doUnknown v

theorem bodyOf_frame {op : Op} {c : CmdBits} {s t : State} (h : bodyOf op c s = .next t) : AccessFrame s t := by
  cases op with
  | copy => exact doCopy_frame h
  | mix => exact doMix_frame h
  | swap => exact doSwap_frame h
  | fill => exact doFill_frame h
  | unknown v => exact doUnknown_frame h

theorem executeOp_eq (op : Op) (c : CmdBits) (s : State) : executeOp op c s = executeWith c (bodyOf op c) s := by
  cases op <;> rfl

/-- Everything an Execute step of a running block can answer as a next state (R188): the byte operation's state, then
the tail. -/
theorem executeOp_next {op : Op} {c : CmdBits} {s t : State} (hs : s.halted = none) :
    executeOp op c s = .next t ↔ ∃ u, bodyOf op c s = .next u ∧ t = executeTail c u := by
  rw [executeOp_eq]
  constructor
  · intro h
    obtain ⟨u, hu, ⟨-, hk⟩ | ⟨hn, -⟩⟩ := andThen_next.mp h
    · exact ⟨u, hu, by cases hk; rfl⟩
    · exact absurd ((bodyOf_frame hu).halted.trans hs) hn
  · rintro ⟨u, hu, rfl⟩
    exact andThen_next.mpr ⟨u, hu, .inl ⟨(bodyOf_frame hu).halted.trans hs, rfl⟩⟩

/-- Everything the tail does (R188, R189): cursors, `remaining`, and at 0 the flags and phase. -/
theorem executeTail_cases (c : CmdBits) (s : State) :
    (s.remaining - 1 ≠ 0 ∧ executeTail c s =
        { s with srcCur := advance s.srcCur s.cur.src.step, tgtCur := advance s.tgtCur s.cur.tgt.step,
                 remaining := s.remaining - 1 })
    ∨ (s.remaining - 1 = 0 ∧ c.chain = true ∧ executeTail c s =
        { s with srcCur := advance s.srcCur s.cur.src.step, tgtCur := advance s.tgtCur s.cur.tgt.step,
                 remaining := 0, phase := .fetch, chainCont := true })
    ∨ (s.remaining - 1 = 0 ∧ c.chain = false ∧ executeTail c s =
        { s with srcCur := advance s.srcCur s.cur.src.step, tgtCur := advance s.tgtCur s.cur.tgt.step,
                 remaining := 0, busy := false, chainCont := false }) := by
  by_cases h : s.remaining - 1 = 0
  · cases k : c.chain with
    | true =>
      refine .inr (.inl ⟨h, rfl, ?_⟩)
      simp [executeTail, h, k, complete, State.setFlags, State.setCursors, State.setRemaining]
    | false =>
      refine .inr (.inr ⟨h, rfl, ?_⟩)
      simp [executeTail, h, k, complete, State.setFlags, State.setCursors, State.setRemaining]
  · refine .inl ⟨h, ?_⟩
    simp [executeTail, h, State.setCursors, State.setRemaining]

/-! ### One engine call -/

/-- The operation an Execute step of `s` performs (R104, R188). -/
def currentOp (s : State) : Op := decodeOp s.params.implementedOps s.cur.command

/-- Everything one engine call can answer as a next state (R185 to R188). -/
theorem engineStep_cases {s t : State} (h : engineStep s = .next t) (hs : s.halted = none) :
    (s.busy = false ∧ t = s)
    ∨ (s.busy = true ∧ s.params.dmaMaxIterations ≤ s.iterCount ∧ t = s.setHalted (some (.runawayDma s.lp)))
    ∨ (s.busy = true ∧ s.iterCount < s.params.dmaMaxIterations ∧ s.phase = .fetch
        ∧ t = fetchDescriptor (s.setIter (s.iterCount + 1)))
    ∨ (s.busy = true ∧ s.iterCount < s.params.dmaMaxIterations ∧ s.phase = .execute
        ∧ ∃ u, bodyOf (currentOp s) (cmdBitsOf s.cur.command) (s.setIter (s.iterCount + 1)) = .next u
          ∧ t = executeTail (cmdBitsOf s.cur.command) u) := by
  unfold engineStep at h
  split at h
  · rename_i hb
    split at h
    · rename_i hm
      cases h
      exact .inr (.inl ⟨hb, hm, rfl⟩)
    · rename_i hm
      split at h
      · rename_i hp
        cases h
        exact .inr (.inr (.inl ⟨hb, by omega, hp, rfl⟩))
      · rename_i hp
        obtain ⟨u, hu, ht⟩ := (executeOp_next (by simpa using hs)).mp h
        exact .inr (.inr (.inr ⟨hb, by omega, hp, u, hu, ht⟩))
  · rename_i hb
    cases h
    exact .inl ⟨by simpa using hb, rfl⟩

/-- An idle engine does nothing (R185). -/
theorem engineStep_idle {s : State} (h : s.busy = false) : engineStep s = .next s := by
  simp [engineStep, h]

/-- The parameters, what waits to be issued and the byte returned to the CPU never change in an engine call. -/
theorem engineStep_frame {s t : State} (h : engineStep s = .next t) (hs : s.halted = none) :
    t.params = s.params ∧ t.dreg0 = s.dreg0 ∧ t.result = s.result ∧ t.inputs = s.inputs ∧ t.credit = s.credit := by
  obtain ⟨-, rfl⟩ | ⟨-, -, rfl⟩ | ⟨-, -, -, rfl⟩ | ⟨-, -, -, u, hu, rfl⟩ := engineStep_cases h hs
  · exact ⟨rfl, rfl, rfl, rfl, rfl⟩
  · exact ⟨rfl, rfl, rfl, rfl, rfl⟩
  · rw [fetchDescriptor_eq]
    exact ⟨rfl, rfl, rfl, rfl, rfl⟩
  · have f := bodyOf_frame hu
    obtain ⟨-, k⟩ | ⟨-, -, k⟩ | ⟨-, -, k⟩ := executeTail_cases (cmdBitsOf s.cur.command) u <;> rw [k] <;>
      exact ⟨f.params, f.dreg0, f.result, f.inputs, f.credit⟩

/-! ### Drains and starts -/

/-- A property that every engine call keeps holds after a drain. -/
theorem drain_preserves {P : State → Prop}
    (hstep : ∀ s t, P s → s.halted = none → engineStep s = .next t → P t) :
    ∀ (n : Nat) (s t : State), P s → s.halted = none → drain n s = .next t → P t
  | 0, s, t, hP, _, h => by cases h; exact hP
  | n + 1, s, t, hP, hs, h => by
    unfold drain at h
    split at h
    · obtain ⟨u, hu, ⟨hn, hk⟩ | ⟨-, rfl⟩⟩ := andThen_next.mp h
      · exact drain_preserves hstep n u t (hstep s u hP hs hu) hn hk
      · exact hstep s _ hP hs hu
    · cases h
      exact hP

/-- Everything `start` can answer as a next state (R182, R183): the prior chain's drain raised a fatal condition, or the
new chain was armed and, under DRAIN, run. -/
theorem startDma_cases {a : BitVec 24} {s t : State} (h : startDma a s = .next t) :
    s.params.variant = .base
    ∧ ∃ u, drainPrior s = .next u ∧ ((u.halted ≠ none ∧ t = u) ∨ (u.halted = none ∧ runArmed (armEngine a u) = .next t)) := by
  unfold startDma at h
  split at h
  · cases h
  · rename_i hv
    obtain ⟨u, hu, ⟨hn, hk⟩ | ⟨hn, rfl⟩⟩ := andThen_next.mp h
    · exact ⟨hv, u, hu, .inr ⟨hn, hk⟩⟩
    · exact ⟨hv, t, hu, .inl ⟨hn, rfl⟩⟩

/-- A property that the log event, the arming and every engine call keep holds after a start. -/
theorem startDma_preserves {P : State → Prop}
    (hlog : ∀ s, P s → P (s.pushLog .retriggerWhileBusy))
    (harm : ∀ a s, P s → P (armEngine a s))
    (hstep : ∀ s t, P s → s.halted = none → engineStep s = .next t → P t)
    {a : BitVec 24} {s t : State} (hP : P s) (hs : s.halted = none) (h : startDma a s = .next t) : P t := by
  obtain ⟨-, u, hu, hk⟩ := startDma_cases h
  have hPu : P u := by
    unfold drainPrior at hu
    split at hu
    · exact drain_preserves hstep _ _ _ (hlog s hP) (by simpa using hs) hu
    · cases hu
      exact hP
  obtain ⟨-, rfl⟩ | ⟨hn, hr⟩ := hk
  · exact hPu
  · unfold runArmed at hr
    split at hr
    · exact drain_preserves hstep _ _ _ (harm a u hPu) (by simpa [armEngine] using hn) hr
    · cases hr
      exact harm a u hPu

end Sys2Proof.Machine
end

