-- ==== Sys2Proof/Laws/PerInstr.lean ====
section
/-! SUPPORT. Facts about every instruction as syntax, one lemma per constructor. -/

namespace Sys2Proof.Laws

/-- The number of bytes a format has: one command byte, eleven descriptor bytes, three address bytes, an index with or
without its data byte; a port operation has none (R100, R101, R103, R105, R110). -/
def formatLength (f : Format) : Option Nat :=
  match f with
  | .cmd => some 1
  | .desc11 => some 11
  | .addr3 _ => some 3
  | .regWrite => some 2
  | .regRead => some 1
  | .port => none

/-- An instruction's encoding has as many bytes as its format. -/
def EncodedLength.Statement (i : Instr) : Prop := (encode i).map List.length = formatLength (formatOf i)

theorem EncodedLength.copy (c : CmdBits) : EncodedLength.Statement (.copy c) := rfl
theorem EncodedLength.mix (c : CmdBits) : EncodedLength.Statement (.mix c) := rfl
theorem EncodedLength.swap (c : CmdBits) : EncodedLength.Statement (.swap c) := rfl
theorem EncodedLength.fill (c : CmdBits) : EncodedLength.Statement (.fill c) := rfl
theorem EncodedLength.unknown (v : BitVec 2) (c : CmdBits) : EncodedLength.Statement (.unknown v c) := rfl
theorem EncodedLength.desc11 (d : Desc11) : EncodedLength.Statement (.desc11 d) := rfl
theorem EncodedLength.addr3 (n : SideName) (a : Addr3) : EncodedLength.Statement (.addr3 n a) := rfl
theorem EncodedLength.dmaRegWriteListLo (v : Byte) : EncodedLength.Statement (.dmaRegWriteListLo v) := rfl
theorem EncodedLength.dmaRegReadListLo : EncodedLength.Statement .dmaRegReadListLo := rfl
theorem EncodedLength.dmaRegWriteListHi (v : Byte) : EncodedLength.Statement (.dmaRegWriteListHi v) := rfl
theorem EncodedLength.dmaRegReadListHi : EncodedLength.Statement .dmaRegReadListHi := rfl
theorem EncodedLength.dmaRegWriteListBank (v : Byte) : EncodedLength.Statement (.dmaRegWriteListBank v) := rfl
theorem EncodedLength.dmaRegReadListBank : EncodedLength.Statement .dmaRegReadListBank := rfl
theorem EncodedLength.dmaRegWriteStatus (v : Byte) : EncodedLength.Statement (.dmaRegWriteStatus v) := rfl
theorem EncodedLength.dmaRegReadStatus : EncodedLength.Statement .dmaRegReadStatus := rfl
theorem EncodedLength.setMap (m : Byte) (a b c d : Nat) : EncodedLength.Statement (.setMap m a b c d) := rfl
theorem EncodedLength.writePortDdr (v : Byte) : EncodedLength.Statement (.writePortDdr v) := rfl
theorem EncodedLength.writePortData (v : Byte) : EncodedLength.Statement (.writePortData v) := rfl
theorem EncodedLength.writeOverlay (v : Byte) : EncodedLength.Statement (.writeOverlay v) := rfl
theorem EncodedLength.cpuRead (a : CpuAddr) : EncodedLength.Statement (.cpuRead a) := rfl
theorem EncodedLength.cpuWrite (a : CpuAddr) (v : Byte) : EncodedLength.Statement (.cpuWrite a v) := rfl
theorem EncodedLength.cpuFetch (a : CpuAddr) : EncodedLength.Statement (.cpuFetch a) := rfl
theorem EncodedLength.dmaStep : EncodedLength.Statement .dmaStep := rfl
theorem EncodedLength.reset : EncodedLength.Statement .reset := rfl

end Sys2Proof.Laws
end

