-- ==== Sys2Proof/Laws/Step.lean ====
section
/-! SUPPORT. What the driving loop's turn can do, and the cases of the CPU's accesses. -/

namespace Sys2Proof.Machine

/-! ### The meaning of each instruction, as its shared operation -/

section
variable (s : State)
@[simp] theorem exec_copy (c : CmdBits) : exec (.copy c) s = whenRunning s (executeOp .copy c) := rfl
@[simp] theorem exec_mix (c : CmdBits) : exec (.mix c) s = whenRunning s (executeOp .mix c) := rfl
@[simp] theorem exec_swap (c : CmdBits) : exec (.swap c) s = whenRunning s (executeOp .swap c) := rfl
@[simp] theorem exec_fill (c : CmdBits) : exec (.fill c) s = whenRunning s (executeOp .fill c) := rfl
@[simp] theorem exec_unknown (v : BitVec 2) (c : CmdBits) : exec (.unknown v c) s = whenRunning s (executeOp (.unknown v) c) := rfl
@[simp] theorem exec_desc11 (d : Desc11) : exec (.desc11 d) s = whenRunning s (fun t => .next (latchDescriptor d t)) := rfl
@[simp] theorem exec_addr3 (n : SideName) (a : Addr3) : exec (.addr3 n a) s = whenRunning s (fun t => .next (latchSide n a t)) := rfl
@[simp] theorem exec_dmaRegWriteListLo (v : Byte) : exec (.dmaRegWriteListLo v) s = whenRunning s (dmaRegWrite 0 v) := rfl
@[simp] theorem exec_dmaRegReadListLo : exec .dmaRegReadListLo s = whenRunning s (fun t => .next (t.setResult (dmaRegRead 0 t))) := rfl
@[simp] theorem exec_dmaRegWriteListHi (v : Byte) : exec (.dmaRegWriteListHi v) s = whenRunning s (dmaRegWrite 1 v) := rfl
@[simp] theorem exec_dmaRegReadListHi : exec .dmaRegReadListHi s = whenRunning s (fun t => .next (t.setResult (dmaRegRead 1 t))) := rfl
@[simp] theorem exec_dmaRegWriteListBank (v : Byte) : exec (.dmaRegWriteListBank v) s = whenRunning s (dmaRegWrite 2 v) := rfl
@[simp] theorem exec_dmaRegReadListBank : exec .dmaRegReadListBank s = whenRunning s (fun t => .next (t.setResult (dmaRegRead 2 t))) := rfl
@[simp] theorem exec_dmaRegWriteStatus (v : Byte) : exec (.dmaRegWriteStatus v) s = whenRunning s (dmaRegWrite 3 v) := rfl
@[simp] theorem exec_dmaRegReadStatus : exec .dmaRegReadStatus s = whenRunning s (fun t => .next (t.setResult (dmaRegRead 3 t))) := rfl
@[simp] theorem exec_setMap (m : Byte) (lo hi mlo mhi : Nat) : exec (.setMap m lo hi mlo mhi) s = whenRunning s (fun t => .next (setMap m lo hi mlo mhi t)) := rfl
@[simp] theorem exec_writePortDdr (v : Byte) : exec (.writePortDdr v) s = whenRunning s (fun t => .next (writePortDdr v t)) := rfl
@[simp] theorem exec_writePortData (v : Byte) : exec (.writePortData v) s = whenRunning s (fun t => .next (writePortData v t)) := rfl
@[simp] theorem exec_writeOverlay (v : Byte) : exec (.writeOverlay v) s = whenRunning s (fun t => .next (writeOverlay v t)) := rfl
@[simp] theorem exec_cpuRead (a : CpuAddr) : exec (.cpuRead a) s = whenRunning s (memRead a) := rfl
@[simp] theorem exec_cpuWrite (a : CpuAddr) (v : Byte) : exec (.cpuWrite a v) s = whenRunning s (memWrite a v) := rfl
@[simp] theorem exec_cpuFetch (a : CpuAddr) : exec (.cpuFetch a) s = whenRunning s (memRead a) := rfl
@[simp] theorem exec_dmaStep : exec .dmaStep s = whenRunning s engineStep := rfl
@[simp] theorem exec_reset : exec .reset s = .next (resetOp s) := rfl
end

/-- Every operation but Reset is an operation of a running block (R249). -/
theorem exec_whenRunning (i : Instr) (hne : i ≠ .reset) : ∃ k, ∀ s, exec i s = whenRunning s k := by
  cases i with
  | reset => exact absurd rfl hne
  | copy c => exact ⟨_, fun s => exec_copy s c⟩
  | mix c => exact ⟨_, fun s => exec_mix s c⟩
  | swap c => exact ⟨_, fun s => exec_swap s c⟩
  | fill c => exact ⟨_, fun s => exec_fill s c⟩
  | unknown v c => exact ⟨_, fun s => exec_unknown s v c⟩
  | desc11 d => exact ⟨_, fun s => exec_desc11 s d⟩
  | addr3 n a => exact ⟨_, fun s => exec_addr3 s n a⟩
  | dmaRegWriteListLo v => exact ⟨_, fun s => exec_dmaRegWriteListLo s v⟩
  | dmaRegReadListLo => exact ⟨_, fun s => exec_dmaRegReadListLo s⟩
  | dmaRegWriteListHi v => exact ⟨_, fun s => exec_dmaRegWriteListHi s v⟩
  | dmaRegReadListHi => exact ⟨_, fun s => exec_dmaRegReadListHi s⟩
  | dmaRegWriteListBank v => exact ⟨_, fun s => exec_dmaRegWriteListBank s v⟩
  | dmaRegReadListBank => exact ⟨_, fun s => exec_dmaRegReadListBank s⟩
  | dmaRegWriteStatus v => exact ⟨_, fun s => exec_dmaRegWriteStatus s v⟩
  | dmaRegReadStatus => exact ⟨_, fun s => exec_dmaRegReadStatus s⟩
  | setMap m lo hi mlo mhi => exact ⟨_, fun s => exec_setMap s m lo hi mlo mhi⟩
  | writePortDdr v => exact ⟨_, fun s => exec_writePortDdr s v⟩
  | writePortData v => exact ⟨_, fun s => exec_writePortData s v⟩
  | writeOverlay v => exact ⟨_, fun s => exec_writeOverlay s v⟩
  | cpuRead a => exact ⟨_, fun s => exec_cpuRead s a⟩
  | cpuWrite a v => exact ⟨_, fun s => exec_cpuWrite s a v⟩
  | cpuFetch a => exact ⟨_, fun s => exec_cpuFetch s a⟩
  | dmaStep => exact ⟨_, fun s => exec_dmaStep s⟩

/-- Every operation but Reset answers a next state only when the block is not halted (R249). -/
theorem exec_next_running {i : Instr} {s t : State} (h : exec i s = .next t) (hi : i ≠ .reset) : s.halted = none := by
  obtain ⟨k, hk⟩ := exec_whenRunning i hi
  rw [hk] at h
  exact (whenRunning_next.mp h).1

/-- The driving loop gives at most `k` engine calls after an operation (R75, R190). -/
theorem creditAfter_le {p : Params} {k : Nat} (h : p.dmaPolicy = .interleaved k) (i : Instr) (draw : Nat) :
    creditAfter p i draw ≤ k := by
  have : Config.callsAfter draw % (k + 1) < k + 1 := Nat.mod_lt _ (by omega)
  simp only [creditAfter, h]
  split <;> omega

/-- Everything a step can answer as a next state (R9, R190): an engine call, an operation taken from the inputs, or
nothing. -/
theorem step_cases {s t : State} (h : step s = .next t) :
    (engineTurn s = true ∧ exec .dmaStep (s.setSchedule s.inputs (s.credit - 1)) = .next t)
    ∨ (engineTurn s = false ∧ ∃ i rest, s.inputs = i :: rest
        ∧ exec i (s.setSchedule rest (creditAfter s.params i s.draws)).bumpDraws = .next t)
    ∨ (engineTurn s = false ∧ s.inputs = [] ∧ s.halted = none ∧ t = s) := by
  unfold step loopTurn at h
  cases e : engineTurn s with
  | true => exact .inl ⟨rfl, by simpa [e] using h⟩
  | false =>
    cases hin : s.inputs with
    | cons i rest => exact .inr (.inl ⟨rfl, i, rest, rfl, by simpa [e, hin] using h⟩)
    | nil =>
      cases hh : s.halted with
      | none =>
        simp [e, hin, hh] at h
        exact .inr (.inr ⟨rfl, rfl, rfl, h.symm⟩)
      | some f => simp [e, hin, hh] at h

/-- Everything a CPU read of a running block can answer (R64): a byte of PhysicalStore, an IoRead, or F1. -/
theorem memRead_cases (addr : CpuAddr) (s : State) :
    (∃ pa, translate s.tt addr .read = .physical pa ∧ memRead addr s = .next (s.setResult (physRead s pa)))
    ∨ (translate s.tt addr .read = .io addr
        ∧ memRead addr s = .next ((ioRead addr s).2.setResult (ioRead addr s).1))
    ∨ (translate s.tt addr .read = .inconsistent addr
        ∧ memRead addr s = .next (s.setHalted (some (.configInconsistency addr)))) := by
  obtain ⟨-, h⟩ | ⟨-, -, h⟩ | ⟨-, -, h⟩ := translate_cases s.tt addr .read
  · exact .inl ⟨_, h, by simp [memRead, h]⟩
  · exact .inr (.inl ⟨h, by simp [memRead, h]⟩)
  · exact .inr (.inr ⟨h, by simp [memRead, h]⟩)

/-- Everything a CPU write of a running block can answer (R64): a byte written to memory, an IoWrite, or F1. -/
theorem memWrite_cases (addr : CpuAddr) (v : Byte) (s : State) :
    (∃ pa, translate s.tt addr .write = .physical pa ∧ memWrite addr v s = .next (memStore pa v s))
    ∨ (translate s.tt addr .write = .io addr ∧ memWrite addr v s = ioWriteCpu addr v s)
    ∨ (translate s.tt addr .write = .inconsistent addr
        ∧ memWrite addr v s = .next (s.setHalted (some (.configInconsistency addr)))) := by
  obtain ⟨-, h⟩ | ⟨-, -, h⟩ | ⟨-, -, h⟩ := translate_cases s.tt addr .write
  · exact .inl ⟨_, h, by simp [memWrite, h]⟩
  · exact .inr (.inl ⟨h, by simp [memWrite, h]⟩)
  · exact .inr (.inr ⟨h, by simp [memWrite, h]⟩)

/-- What the host loads keeps the canonical form of PhysicalStore (R272). -/
theorem storeBytes_wf (p : Params) (bs : List Byte) (pa : Nat) (m : Memory) (h : Memory.wf m = true) :
    Memory.wf (storeBytes p pa bs m) = true := by
  induction bs generalizing pa m with
  | nil => exact h
  | cons b bs ih => exact ih _ _ (Memory.wf_write _ _ _ h)

/-- PhysicalStore after reset has the canonical form (R29). -/
theorem reset_phys_wf : Memory.wf State.reset.phys = true := rfl

/-- Everything a DMA register write can answer (R180, R181). -/
theorem dmaRegWrite_cases (i : BitVec 2) (v : Byte) (s : State) :
    (i = 0 ∧ dmaRegWrite i v s = startDma (listAddress (s.setDreg0 v)) (s.setDreg0 v))
    ∨ (i = 1 ∧ dmaRegWrite i v s = .next (s.setDreg1 v)) ∨ (i = 2 ∧ dmaRegWrite i v s = .next (s.setDreg2 v))
    ∨ (i = 3 ∧ dmaRegWrite i v s = .next s) := by
  obtain rfl | rfl | rfl | rfl := regIndex_values i <;> simp [dmaRegWrite, dmaRegStore]

/-- Everything the CPU's `IoWrite` can answer (R63, R64). -/
theorem ioWriteCpu_cases (a : CpuAddr) (v : Byte) (s : State) :
    (∃ i, regIndex s.params a = some i ∧ ioWriteCpu a v s = dmaRegWrite i v (s.pushIo (.write a v)))
    ∨ (regIndex s.params a = none ∧ ioWriteCpu a v s = .next (ioWriteOther a v (s.pushIo (.write a v)))) := by
  cases h : regIndex s.params a with
  | none => exact .inr ⟨rfl, by simp [ioWriteCpu, h]⟩
  | some i => exact .inl ⟨i, rfl, by simp [ioWriteCpu, h]⟩

end Sys2Proof.Machine
end

