-- ==== Sys2Proof/Tests/Slice0.lean ====
section
/-! SUPPORT. Small tests: words of the spec's encodings and what they decode to, ill-formed terms that `WellFormed`
refuses, one step of each instruction with the value a vector of `95_test_vectors.md` or a rule gives, and a witness for
the hypotheses of every statement. No expected value comes from the model. -/

namespace Sys2Proof.Tests

open Sys2Proof Sys2Proof.Machine

/-! ### Helpers -/

/-- Does the operation answer a next state with this property? -/
def nextIs (o : Out) (p : State → Bool) : Bool :=
  match o with
  | .next s => p s
  | .fault _ => false
  | .refused _ => false

/-- Does the operation answer this refusal? -/
def refusedIs (o : Out) (r : Refusal) : Bool :=
  match o with
  | .refused q => q == r
  | .fault _ => false
  | .next _ => false

/-- Bytes placed in PhysicalStore upward from an address. -/
def withBytes (a : Nat) (bs : List Byte) (s : State) : State := s.setPhys (storeBytes s.params a bs s.phys)

/-- The machine after reset, under INTERLEAVED(1). -/
def interleaved : State := { State.reset with params := { profileP0 with dmaPolicy := .interleaved 1 } }

/-- An engine about to execute: a command byte, sides, a count and the two cursors at their addresses. -/
def executing (command : Byte) (src tgt : SideLatch) (remaining : Nat) : State :=
  { State.reset with
    busy := true
    phase := .execute
    cur := ⟨command, 0, src, tgt, 0, 0⟩
    remaining := remaining
    srcCur := src.addr
    tgtCur := tgt.addr }

/-- A memory side that moves up. -/
def memSide (a : Addr20) : SideLatch := ⟨a, false, .up, 0⟩

/-- An I/O side that moves up. -/
def ioSide (a : Addr20) : SideLatch := ⟨a, true, .up, 0⟩

/-- CMD bits all clear. -/
def plain : CmdBits := ⟨false, false, false, false, false, false⟩

/-! ### Decoding: words written out from R101, R103, R105, with the worked example of R117, and the model's own byte form
of a register write and read (assumption 16) over the indices of R110 -/

theorem test_decode_copy : decode OpSet.all .cmd [0b00000000] = .ok (.copy plain) [] := by decide
theorem test_decode_mix : decode OpSet.all .cmd [0b01100001] = .ok (.mix ⟨false, false, false, true, true, false⟩) [] := by
  decide
theorem test_decode_swap : decode OpSet.all .cmd [0b10000010] = .ok (.swap ⟨false, false, false, false, false, true⟩) [] := by
  decide
theorem test_decode_fill : decode OpSet.all .cmd [0b00011111] = .ok (.fill ⟨true, true, true, false, false, false⟩) [] := by
  decide
theorem test_decode_unknown : decode ⟨true, false, false, true⟩ .cmd [0b00000110]
    = .ok (.unknown 2 ⟨true, false, false, false, false, false⟩) [] := by decide
theorem test_decode_desc11 :
    decode OpSet.all .desc11 [0x00, 0x04, 0x00, 0x00, 0x10, 0x00, 0x00, 0x20, 0x00, 0x00, 0x00]
      = .ok (.desc11 ⟨0x00, 4, ⟨0x01000, false, false, false, false⟩, ⟨0x02000, false, false, false, false⟩, 0⟩) [] := by
  decide
theorem test_decode_desc11_flags :
    decode OpSet.all .desc11 [0xF8, 0x04, 0x03, 0x45, 0x23, 0x31, 0x20, 0xF0, 0xCF, 0x34, 0x12, 0x99]
      = .ok (.desc11 ⟨0xF8, 0x0304, ⟨0x12345, true, true, false, false⟩, ⟨0xFF020, false, false, true, true⟩, 0x1234⟩)
        [0x99] := by decide
theorem test_decode_addr3_hold : decode OpSet.all (.addr3 .src) [0x45, 0x23, 0x11]
    = .ok (.addr3 .src ⟨0x12345, true, false, false, false⟩) [] := by decide
theorem test_decode_addr3_io_down : decode OpSet.all (.addr3 .tgt) [0x20, 0xD0, 0xC0]
    = .ok (.addr3 .tgt ⟨0x0D020, false, false, true, true⟩) [] := by decide
theorem test_decode_write_list_lo : decode OpSet.all .regWrite [0x00, 0x45] = .ok (.dmaRegWriteListLo 0x45) [] := by decide
theorem test_decode_write_list_hi : decode OpSet.all .regWrite [0x01, 0x23] = .ok (.dmaRegWriteListHi 0x23) [] := by decide
theorem test_decode_write_list_bank : decode OpSet.all .regWrite [0x02, 0x01] = .ok (.dmaRegWriteListBank 0x01) [] := by
  decide
theorem test_decode_write_status : decode OpSet.all .regWrite [0x03, 0xFF] = .ok (.dmaRegWriteStatus 0xFF) [] := by decide
theorem test_decode_read_list_lo : decode OpSet.all .regRead [0x00] = .ok .dmaRegReadListLo [] := by decide
theorem test_decode_read_list_hi : decode OpSet.all .regRead [0x01] = .ok .dmaRegReadListHi [] := by decide
theorem test_decode_read_list_bank : decode OpSet.all .regRead [0x02] = .ok .dmaRegReadListBank [] := by decide
theorem test_decode_read_status : decode OpSet.all .regRead [0x03] = .ok .dmaRegReadStatus [] := by decide
theorem test_decode_no_register : decode OpSet.all .regWrite [0x04, 0x00] = .rejected (.noSuchRegister 0x04) := by decide
theorem test_decode_too_short : decode OpSet.all .desc11 [0x00, 0x04] = .rejected (.tooShort .desc11) := by decide
theorem test_decode_port : decode OpSet.all .port [0x00] = .rejected .noBitEncoding := by decide
theorem test_table_word_cmd : decodeTableWord 8 0x61 = some (.mix ⟨false, false, false, true, true, false⟩) := by decide
theorem test_table_word_desc : decodeTableWord 88 0x0000002000001000000403
    = some (.desc11 ⟨0x03, 4, ⟨0x01000, false, false, false, false⟩, ⟨0x02000, false, false, false, false⟩, 0⟩) := by decide

/-! ### WellFormed refuses an ill-formed term of each check -/

theorem test_ill_copy : WellFormed { profileP0 with implementedOps := ⟨false, true, true, true⟩ } (.copy plain) = false := by
  decide
theorem test_ill_mix : WellFormed { profileP0 with implementedOps := ⟨true, false, true, true⟩ } (.mix plain) = false := by
  decide
theorem test_ill_swap : WellFormed { profileP0 with implementedOps := ⟨true, true, false, true⟩ } (.swap plain) = false := by
  decide
theorem test_ill_fill : WellFormed { profileP0 with implementedOps := ⟨true, true, true, false⟩ } (.fill plain) = false := by
  decide
theorem test_ill_unknown : WellFormed profileP0 (.unknown 2 plain) = false := by decide
theorem test_ill_offset_low : WellFormed profileP0 (.setMap 0 0x100000 0 0 0) = false := by decide
theorem test_ill_offset_high : WellFormed profileP0 (.setMap 0 0 0x100000 0 0) = false := by decide
theorem test_ill_megabyte_low : WellFormed profileP0 (.setMap 0 0 0 1 0) = false := by decide
theorem test_ill_megabyte_high : WellFormed profileP0 (.setMap 0 0 0 0 1) = false := by decide
theorem test_well_formed : WellFormed { profileP0 with variant := .extended 8 } (.setMap 0xFF 0xFFFFF 0xFFFFF 255 255) = true := by
  decide

/-! ### One step of each instruction -/

/-- R210's example. -/
theorem test_copy : nextIs (exec (.copy plain) (withBytes 0x1000 [0xA1] (executing 0 (memSide 0x1000) (memSide 0x2000) 4)))
    (fun t => Memory.read t.phys 0x2000 == some 0xA1 && t.srcCur == 0x1001 && t.tgtCur == 0x2001 && t.remaining == 3) = true := by
  decide
/-- Vector V14: the target cursor is folded into the I/O page. -/
theorem test_copy_io : nextIs (exec (.copy plain) (withBytes 0x1000 [0x0E] (executing 0 (memSide 0x1000) (ioSide 0xFF020) 2)))
    (fun t => t.ioTrace == [.write 0xD020 0x0E] && t.phys == [(0x1000, 0x0E)]) = true := by decide
/-- R211's example: `s = 0xCC`, `d = 0xAA`, minterms 0110. -/
theorem test_mix : nextIs (exec (.mix ⟨false, false, false, true, true, false⟩)
    (withBytes 0x2000 [0xAA] (withBytes 0x1000 [0xCC] (executing 0x61 (memSide 0x1000) (memSide 0x2000) 1))))
    (fun t => Memory.read t.phys 0x2000 == some 0x66 && t.busy == false) = true := by decide
/-- Vector V4, the asymmetric row 0100: `s & ~d`. -/
theorem test_mix_and_not : nextIs (exec (.mix ⟨false, false, false, false, true, false⟩)
    (withBytes 0x2000 [0xAA] (withBytes 0x1000 [0xCC] (executing 0x41 (memSide 0x1000) (memSide 0x2000) 1))))
    (fun t => Memory.read t.phys 0x2000 == some 0x44) = true := by decide
/-- Vector V3. -/
theorem test_swap : nextIs (exec (.swap plain)
    (withBytes 0x2000 [0x55] (withBytes 0x1000 [0xAA] (executing 2 (memSide 0x1000) (memSide 0x2000) 1))))
    (fun t => Memory.read t.phys 0x1000 == some 0x55 && Memory.read t.phys 0x2000 == some 0xAA) = true := by decide
/-- R212: a side in ROM keeps its byte and gives it to the other side. -/
theorem test_swap_rom : nextIs (exec (.swap plain)
    (withBytes 0x2A000 [0x94] (withBytes 0x1000 [0x11] (executing 2 (memSide 0x1000) (memSide 0x2A000) 1))))
    (fun t => t.phys == [(0x1000, 0x94), (0x2A000, 0x94)]) = true := by decide
/-- R213: the constant is the latched low byte, not the live cursor's. -/
theorem test_fill : nextIs (exec (.fill plain) { executing 3 (memSide 0x00042) (memSide 0x3000) 10 with srcCur := 0x00047 })
    (fun t => t.phys == [(0x3000, 0x42)] && t.srcCur == 0x00048 && t.tgtCur == 0x3001) = true := by decide
/-- R189, V8: the last byte of a chained descriptor. -/
theorem test_fill_chained : nextIs (exec (.fill ⟨true, false, false, false, false, false⟩)
    (executing 7 (memSide 0xA5) (memSide 0x3003) 1)) (fun t => statusByte t == 0x81 && t.phase == .fetch) = true := by
  decide
/-- Vector V12: logged, no access, the tail runs. -/
theorem test_unknown : nextIs (exec (.unknown 1 plain) (executing 1 (memSide 0x1000) (memSide 0x2000) 2))
    (fun t => t.log == [.unknownDmaCommand 1] && t.phys == [] && t.srcCur == 0x1001 && t.remaining == 1) = true := by
  decide
/-- R106, R107: HOLD wins over DIR, length 0 means 65536. -/
theorem test_desc11 : nextIs (exec (.desc11 ⟨0x03, 0, ⟨0x12345, true, false, true, false⟩, ⟨0x0D020, false, false, true, true⟩, 7⟩)
    { State.reset with lp := 0xFFFFA })
    (fun t => t.remaining == 65536 && t.cur.src.step == .hold && t.cur.tgt.step == .down && t.cur.tgt.io && t.lp == 5
      && t.cur.modulo == 7 && t.phase == .execute) = true := by decide
theorem test_addr3 : nextIs (exec (.addr3 .tgt ⟨0x0D020, false, false, true, true⟩) State.reset)
    (fun t => t.cur.tgt == ⟨0x0D020, true, .down, 0⟩ && t.tgtCur == 0x0D020 && t.cur.src == State.reset.cur.src) = true := by
  decide
/-- Vectors Q2 and Q3: the trigger assembles the list address; the top nibble is dropped. -/
theorem test_write_list_lo : nextIs (exec (.dmaRegWriteListLo 0x00) { interleaved with dreg1 := 0x04, dreg2 := 0xF0 })
    (fun t => t.lp == 0x00400 && t.busy && t.dreg2 == 0xF0 && t.iterCount == 0) = true := by decide
/-- Vector V2, its first ten bytes cut to two: a drained FILL. -/
theorem test_write_list_lo_drains : nextIs (exec (.dmaRegWriteListLo 0x00)
    (withBytes 0x400 [0x03, 0x02, 0x00, 0x42, 0x00, 0x00, 0x00, 0x30, 0x00, 0x00, 0x00] { State.reset with dreg1 := 0x04 }))
    (fun t => Memory.read t.phys 0x3001 == some 0x42 && t.iterCount == 3 && t.lp == 0x40B && t.busy == false) = true := by
  decide
theorem test_write_list_hi : nextIs (exec (.dmaRegWriteListHi 0x23) State.reset) (fun t => t.dreg1 == 0x23 && !t.busy) = true := by
  decide
theorem test_write_list_bank : nextIs (exec (.dmaRegWriteListBank 0x01) State.reset) (fun t => t.dreg2 == 0x01 && !t.busy) = true := by
  decide
theorem test_write_status : nextIs (exec (.dmaRegWriteStatus 0xFF) State.reset) (fun t => t == State.reset) = true := by
  decide
theorem test_read_list_lo : nextIs (exec .dmaRegReadListLo { State.reset with dreg0 := 0x45 }) (fun t => t.result == some 0x45) = true := by
  decide
theorem test_read_list_hi : nextIs (exec .dmaRegReadListHi { State.reset with dreg1 := 0x23 }) (fun t => t.result == some 0x23) = true := by
  decide
theorem test_read_list_bank : nextIs (exec .dmaRegReadListBank { State.reset with dreg2 := 0xF0 }) (fun t => t.result == some 0xF0) = true := by
  decide
theorem test_read_status : nextIs (exec .dmaRegReadStatus { State.reset with busy := true, chainCont := true })
    (fun t => t.result == some 0x81) = true := by decide
/-- Vector T3. -/
theorem test_set_map : nextIs (exec (.setMap 0x01 0xFFF00 0 0 0) State.reset)
    (fun t => translate t.tt 0x0200 .read == .physical 0x00100 && translate t.tt 0x00FF .write == .physical 0xFFFFF) = true := by
  decide
/-- Vector T4: region $D is plain memory when its block is mapped. -/
theorem test_set_map_region_d : nextIs (exec (.setMap 0x40 0 0x10000 0 0) State.reset)
    (fun t => translate t.tt 0xD020 .read == .physical 0x1D020 && translate t.tt 0xE000 .read == .physical 0x2E000) = true := by
  decide
/-- R154's example. -/
theorem test_write_port_ddr : nextIs (exec (.writePortDdr 0x07) State.reset)
    (fun t => cpuPort t.cfg == 0 && translate t.tt 0xD123 .read == .physical 0x0D123) = true := by decide
/-- Vector T7, row 1. -/
theorem test_write_port_data : nextIs (exec (.writePortData 0x01) { State.reset with cfg := { resetBank with cpuPortDdr := 0x07 } })
    (fun t => translate t.tt 0xD123 .read == .physical 0x2D123 && translate t.tt 0xD123 .write == .physical 0x0D123
      && translate t.tt 0xA000 .read == .physical 0x0A000) = true := by decide
/-- Vector T6: the overlay at $C000 stops at $CFFF. -/
theorem test_write_overlay : nextIs (exec (.writeOverlay 0x20) State.reset)
    (fun t => translate t.tt 0xCFFF .read == .physical 0x2CFFF && translate t.tt 0xD000 .read == .io 0xD000) = true := by
  decide
/-- Program P1, line 3: a write under the KERNAL is not what a read returns. -/
theorem test_cpu_read : nextIs (exec (.cpuRead 0xE000) (withBytes 0x2E000 [0x85] (withBytes 0x0E000 [0x55] State.reset)))
    (fun t => t.result == some 0x85) = true := by decide
/-- Program P2, line 5: STATUS through the I/O page. -/
theorem test_cpu_read_io : nextIs (exec (.cpuRead 0xD703) State.reset)
    (fun t => t.result == some 0x00 && t.draws == 0) = true := by decide
/-- R158's example. -/
theorem test_cpu_write : nextIs (exec (.cpuWrite 0xE000 0x55) State.reset) (fun t => t.phys == [(0x0E000, 0x55)]) = true := by
  decide
/-- Vector T12: a mapped write that lands on ROM is discarded. -/
theorem test_cpu_write_rom : nextIs (exec (.cpuWrite 0x8000 0x99)
    (State.reset.setBank { resetBank with mapMask := 0x10, mapOffsetHigh := 0x1A000 })) (fun t => t.phys == []) = true := by
  decide
/-- D12: on a platform that binds the CPU port to physical addresses 0 and 1 a memory write there changes banking, and a
DMA write too. -/
theorem test_cpu_write_bound_byte : nextIs (exec (.cpuWrite 0x0001 0x05)
    { State.reset with params := { profileP0 with memBindings := [(0, .ddr), (1, .data)] } })
    (fun t => t.cfg.cpuPortData == 0x05 && t.cfg.cpuPortDdr == 0x00 && t.phys == [(1, 0x05)]) = true := by decide
theorem test_fill_bound_byte : nextIs (exec (.fill plain) { executing 3 (memSide 0x00007) (memSide 0x00000) 1 with
      params := { profileP0 with memBindings := [(0, .ddr), (1, .data)] } })
    (fun t => cpuPort t.cfg == 0 && (t.tt.get 13).io == false && t.phys == [(0, 0x07)]) = true := by decide
theorem test_cpu_fetch : nextIs (exec (.cpuFetch 0xFFFF) (withBytes 0x2FFFF [0xE2] State.reset))
    (fun t => t.result == some 0xE2) = true := by decide
/-- Vector V16: a descriptor read across the top of the physical space. -/
theorem test_dma_step_fetch : nextIs (exec .dmaStep (withBytes 0xFFFFA [0x03, 0x01, 0x00, 0x99, 0x00, 0x00, 0x00, 0x30, 0x00, 0x00, 0x00]
    { State.reset with busy := true, lp := 0xFFFFA }))
    (fun t => t.lp == 5 && t.tgtCur == 0x3000 && t.iterCount == 1 && t.remaining == 1) = true := by decide
/-- Vector V21. -/
theorem test_dma_step_nested : refusedIs (exec .dmaStep (withBytes 0x1000 [0x11] (executing 0 (memSide 0x1000) (ioSide 0x0D700) 1)))
    .nestedDmaStart = true := by decide
/-- Vector Z1, from a halted state. -/
theorem test_reset : nextIs (exec .reset { State.reset with
    halted := some (.runawayDma 0), busy := true, dreg0 := 1, cfg := { resetBank with mapMask := 0xFF } })
    (fun t => t.halted == none && !t.busy && t.dreg0 == 0 && t.cfg == resetBank && t.tt == State.reset.tt) = true := by
  decide
/-- A row's word runs as the first step after reset: FILL, latched, one byte of 65536. -/
theorem test_fetch_word : nextIs (step (State.reset.withFetchWord 8 0x03))
    (fun t => t.phys == [(0, 0x00)] && t.remaining == 65535) = true := by decide
/-- A waiting operation is taken from the inputs. -/
theorem test_step_input : nextIs (step { State.reset with inputs := [.writeOverlay 0x80, .dmaStep] })
    (fun t => t.cfg.romOverlayBits == 0x80 && t.inputs == [.dmaStep]) = true := by decide

/-! ### Witnesses: concrete states that meet the hypotheses of the statements, clause by clause, at boundary values -/

/-- BankConfig with every block mapped. -/
def allMapped : BankConfig := { resetBank with mapMask := 0xFF }

/-- BankConfig with all four overlay windows claimed. -/
def allOverlaid : BankConfig := { resetBank with romOverlayBits := 0xB8 }

/-- A port value: direction all outputs. -/
def withPort (v : Byte) : BankConfig := { resetBank with cpuPortDdr := 0x07, cpuPortData := v }

/-- Profile P0 with bound ports, one of them inside the unimplemented range, and INTERLEAVED(1). -/
def boundParams : Params :=
  { profileP0 with
    ioBindings := [(0xD100, .ddr), (0xD101, .data), (0xD102, .overlay), (0xD900, .data)]
    memBindings := [(0, .ddr), (1, .data), (0x2A000, .overlay)]
    ioUnimplemented := [(0xD800, 0xDBFF)]
    dmaPolicy := .interleaved 1 }

/-- The machine after reset on that platform. -/
def bound : State := { State.reset with params := boundParams }

theorem witness_RecomputePriority :
    (overlayClaims profileP0 allOverlaid 8 = true ∧ overlayClaims profileP0 allOverlaid 15 = true)
    ∧ (overlayClaims profileP0 allMapped 0 = false ∧ mapClaims allMapped 0 = true
      ∧ overlayClaims profileP0 allMapped 15 = false ∧ mapClaims allMapped 15 = true)
    ∧ (∀ n : Region, overlayClaims profileP0 resetBank n = false ∧ mapClaims resetBank n = false) := by decide

theorem witness_OverlayAccess :
    ([((0x8000 : CpuAddr), 0x08, (0x8000 : Nat), 0xA000), (0x9FFF, 0x08, 0x8000, 0xA000), (0xA000, 0x10, 0xA000, 0xC000),
      (0xBFFF, 0x10, 0xA000, 0xC000), (0xC000, 0x20, 0xC000, 0xD000), (0xCFFF, 0x20, 0xC000, 0xD000),
      (0xE000, 0x80, 0xE000, 0x10000), (0xFFFF, 0x80, 0xE000, 0x10000)].all (fun w =>
        decide (w.2.2.1 ≤ w.1.toNat) && decide (w.1.toNat < w.2.2.2) && (allOverlaid.romOverlayBits &&& w.2.1) != 0) = true)
    ∧ profileP0.overlayWrite = .discard ∧ { profileP0 with overlayWrite := .ramUnder }.overlayWrite = .ramUnder
    ∧ [(0x0000 : CpuAddr), 0x7FFF, 0xD000, 0xDFFF].all (fun a =>
        decide (a.toNat < 0x8000 ∨ (0xD000 ≤ a.toNat ∧ a.toNat < 0xE000))) = true := by decide

theorem witness_MappedAccess :
    ([(0x0000 : CpuAddr), 0x7FFF, 0x8000, 0xD020, 0xFFFF].all (fun a =>
      !overlayClaims profileP0 allMapped (regionOf a) && mapClaims allMapped (regionOf a)) = true)
    ∧ (let s := State.reset.setBank { resetBank with mapMask := 0x10, mapOffsetHigh := 0x1A000 }
       s.halted = none ∧ s.tt = recompute s.params s.cfg ∧ overlayClaims s.params s.cfg (regionOf 0x8000) = false
       ∧ mapClaims s.cfg (regionOf 0x8000) = true ∧ translate s.tt 0x8000 .write = .physical 0x22000
       ∧ writableAt s.params (wrapPhys s.params 0x22000) = false) := by decide

theorem witness_DirectAccess :
    [(0x0000 : CpuAddr), 0x7FFF].all (fun a => !mapClaims resetBank (regionOf a) && decide (a.toNat < 0x8000)) = true
    ∧ (7 : Region).val ≤ 7 := by decide

theorem witness_PortWindowAccess :
    ([(0x8000 : CpuAddr), 0x9FFF, 0xA000, 0xBFFF, 0xC000, 0xCFFF, 0xD000, 0xDFFF, 0xE000, 0xFFFF].all (fun a => [(0 : Byte), 1, 2, 7].all (fun v =>
      !overlayClaims profileP0 (withPort v) (regionOf a) && !mapClaims (withPort v) (regionOf a))) = true)
    ∧ (portRow profileP0 (withPort 7)).a = .basic ∧ (portRow profileP0 (withPort 0)).a = .ram
    ∧ (portRow profileP0 (withPort 7)).d = .io ∧ (portRow profileP0 (withPort 1)).d = .chargen
    ∧ (portRow profileP0 (withPort 0)).d = .ram ∧ (portRow profileP0 (withPort 2)).e = .kernal
    ∧ (portRow profileP0 (withPort 0)).e = .ram := by decide

/-- A table no `recompute` builds: every entry is I/O. -/
def allIo : Vector Entry 16 := Vector.replicate 16 ⟨0, 0, 0, 0, true⟩

theorem witness_TranslateAnswers :
    ((allIo.get 13).io = true ∧ (allIo.get 12).io = true ∧ (State.reset.tt.get 0).io = false)
    ∧ (let u : Vector Entry 16 := Vector.replicate 16 ⟨0x10000, 0, 0, 0, false⟩
       (u.get 2).io = false ∧ (u.get 2).rm = 0 ∧ (u.get 2).ro = 0x10000)
    ∧ (let u : Vector Entry 16 := Vector.replicate 16 ⟨0xFFF00, 0, 0, 0, false⟩
       (u.get 0).io = false ∧ (u.get 0).rm = 0 ∧ (u.get 0).ro = 0xFFF00)
    ∧ profileP0.variant = .base ∧ translate (recompute profileP0 resetBank) 0xFFFF .read = .physical 0x2FFFF := by
  decide

theorem witness_EntrySidesDiffer :
    ((recompute profileP0 resetBank).get 10).ro ≠ ((recompute profileP0 resetBank).get 10).wo
    ∧ ((recompute { profileP0 with overlayWrite := .ramUnder } allOverlaid).get 8).ro
        ≠ ((recompute { profileP0 with overlayWrite := .ramUnder } allOverlaid).get 8).wo := by decide

theorem witness_NeutralBankWrites :
    State.reset.halted = none ∧ State.reset.tt = recompute State.reset.params State.reset.cfg
    ∧ ((0xF8 : Byte) ^^^ State.reset.cfg.cpuPortDdr) &&& ~~~State.reset.cfg.cpuPortData &&& 7 = 0
    ∧ ((0xFF : Byte) ^^^ 0x00) &&& ~~~(0x07 : Byte) &&& 7 = 0
    ∧ ((0xFF : Byte) ^^^ State.reset.cfg.cpuPortData) &&& State.reset.cfg.cpuPortDdr &&& 7 = 0
    ∧ ((0x47 : Byte) ^^^ State.reset.cfg.romOverlayBits) &&& ((0x08 : Byte) ||| 0x10 ||| 0x20 ||| 0x80) = 0 := by
  decide

theorem witness_LowRamRoundTrip :
    State.reset.halted = none ∧ State.reset.tt = recompute State.reset.params State.reset.cfg
    ∧ State.reset.cfg.mapMask = 0 ∧ State.reset.cfg.romOverlayBits = 0
    ∧ [(0x0000 : CpuAddr), 0x7FFF].all (fun a =>
        decide (a.toNat < 0x8000) && writableAt State.reset.params a.toNat
        && memBindingAt State.reset.params a.toNat == none) = true := by
  decide

/-- The only hypothesis of SetMapEffect, BankPortWrites, ListRegisterWrites and FormatsLatch; both variants of
SetMapEffect. -/
theorem witness_running :
    State.reset.halted = none ∧ State.reset.params.variant = .base
    ∧ ({ State.reset with params := { profileP0 with variant := .extended 8 } } : State).halted = none := by decide

theorem witness_BankPortWrites :
    (0xF8 : Byte) &&& 7 = (0x00 : Byte) &&& 7
    ∧ ((0xFF : Byte) ^^^ 0x00) &&& resetBank.cpuPortDdr = 0
    ∧ cpuPort { resetBank with cpuPortDdr := 0xF8 } = cpuPort resetBank
    ∧ cpuPort { resetBank with cpuPortData := 0xFF } = cpuPort resetBank ∧ ((7 : Region).val ≤ 7 ∨ (13 : Region) = 13) := by
  decide

theorem witness_CpuReadOfMemory :
    State.reset.halted = none ∧ [(0x0000 : CpuAddr), 0xCFFF, 0xE000, 0xFFFF].all (fun a =>
      !(State.reset.tt.get (regionOf a)).io) = true := by decide

theorem witness_CpuReadOfIo :
    bound.halted = none ∧ (bound.tt.get 13).io = true ∧ bound.params.legal = true
    ∧ (0xD703 : CpuAddr).toNat = bound.params.dmaRegBase.toNat + (3 : BitVec 2).toNat
    ∧ regIndex bound.params 0xD900 = none ∧ unimplementedAt bound.params 0xD900 = false
    ∧ ([(0xD000 : CpuAddr), 0xD6FF, 0xD700, 0xD703, 0xD704, 0xD800, 0xDBFF, 0xDC00, 0xDFFF].all (fun a =>
        regionOf a == 13) = true)
    ∧ regIndex bound.params 0xD700 = some 0 ∧ regIndex bound.params 0xD703 = some 3
    ∧ regIndex bound.params 0xD800 = none ∧ unimplementedAt bound.params 0xD800 = true
    ∧ regIndex bound.params 0xDBFF = none ∧ unimplementedAt bound.params 0xDBFF = true
    ∧ ([(0xD000 : CpuAddr), 0xD6FF, 0xD704, 0xDC00, 0xDFFF].all (fun a =>
        regIndex bound.params a == none && !unimplementedAt bound.params a) = true) := by decide

theorem witness_CpuWriteToMemory :
    State.reset.halted = none ∧ (State.reset.tt.get (regionOf 0xFFFF)).io = false
    ∧ writableAt profileP0 0x0FFFF = true
    ∧ memBindingAt boundParams 0 = some .ddr ∧ memBindingAt boundParams 1 = some .data
    ∧ memBindingAt boundParams 2 = none ∧ writableAt boundParams 2 = true ∧ memBindingAt boundParams 0x2A000 = none
    ∧ (let s := State.reset.setBank allOverlaid
       s.halted = none ∧ (s.tt.get (regionOf 0xE000)).io = false
       ∧ wrapPhys s.params ((s.tt.get (regionOf 0xE000)).wm * 2 ^ 20
          + ((s.tt.get (regionOf 0xE000)).wo.toNat + 0xE000) % 2 ^ 20) = 0x3E000
       ∧ writableAt s.params 0x3E000 = false) := by decide

theorem witness_CpuWriteToIo :
    bound.halted = none ∧ (bound.tt.get 13).io = true ∧ regionOf 0xD102 = 13 ∧ regIndex bound.params 0xD701 = some 1
    ∧ bound.params.legal = true ∧ (0xD700 : CpuAddr).toNat = bound.params.dmaRegBase.toNat + (0 : BitVec 2).toNat
    ∧ ([(0xD100 : CpuAddr), 0xD101, 0xD102, 0xD800, 0xD020].all (fun a => regIndex bound.params a == none) = true)
    ∧ bindingAt bound.params 0xD100 = some .ddr ∧ bindingAt bound.params 0xD101 = some .data
    ∧ bindingAt bound.params 0xD102 = some .overlay
    ∧ bindingAt bound.params 0xD800 = none ∧ unimplementedAt bound.params 0xD800 = true
    ∧ bindingAt bound.params 0xD020 = none ∧ unimplementedAt bound.params 0xD020 = false := by decide

/-- Vector T13: a hand-made table. -/
theorem witness_InconsistentEntryIsFatal :
    ({ State.reset with tt := allIo } : State).halted = none
    ∧ [(0xCFFF : CpuAddr), 0xE000, 0x0000].all (fun a => regionOf a != 13 && (allIo.get (regionOf a)).io) = true := by decide

theorem witness_HaltedIsTerminal :
    ({ State.reset with halted := some (.runawayDma 0) } : State).halted = some (.runawayDma 0)
    ∧ ({ State.reset with halted := some (.runawayDma 0) } : State).inputs.head? ≠ some .reset
    ∧ (Instr.dmaStep ≠ .reset) := by decide

theorem witness_RegisterReads :
    State.reset.halted = none
    ∧ (interleaved.chainCont = true → interleaved.busy = true)
    ∧ ({ interleaved with busy := true } : State).busy = true ∧ ({ interleaved with busy := true } : State).chainCont = false := by
  decide

theorem witness_TriggerArmsEngine :
    interleaved.halted = none ∧ interleaved.params.variant = .base ∧ interleaved.busy = false
    ∧ interleaved.params.dmaPolicy = .interleaved 1 := by decide

theorem witness_DrainedTriggerEnds :
    State.reset.halted = none ∧ State.reset.params.variant = .base ∧ State.reset.params.dmaPolicy = .drain := by decide

/-- Vector V1's descriptor at $00400. -/
def drainedCopy : State :=
  withBytes 0x400 [0x00, 0x04, 0x00, 0x00, 0x10, 0x00, 0x00, 0x20, 0x00, 0x00, 0x00] { State.reset with dreg1 := 0x04 }

theorem witness_DrainedTransferCompletes :
    drainedCopy.halted = none ∧ drainedCopy.params.variant = .base ∧ drainedCopy.params.dmaPolicy = .drain
    ∧ drainedCopy.busy = false
    ∧ 0x400 = (drainedCopy.dreg2.toNat * 65536 + drainedCopy.dreg1.toNat * 256 + (0x00 : Byte).toNat) % 2 ^ 20
    ∧ (let d := descriptorAt { drainedCopy with lp := 0x400 }
       decodeOp drainedCopy.params.implementedOps d.command = .copy
       ∧ d.source.io = false ∧ d.target.io = false ∧ (cmdBitsOf d.command).chain = false ∧ countOf d.length = 4
       ∧ 1 + countOf d.length ≤ drainedCopy.params.dmaMaxIterations) ∧ drainedCopy.params.memBindings = [] := by decide

/-- A busy engine under INTERLEAVED with a small ceiling, its list at the same place. -/
def retriggered (target : List Byte) : State :=
  { withBytes 0x400 ([0x03, 0x02, 0x00, 0x11, 0x00, 0x00] ++ target ++ [0x00, 0x00]) interleaved with
    busy := true, lp := 0x400, params := { profileP0 with dmaPolicy := .interleaved 1, dmaMaxIterations := 5 } }

/-- The prior chain ends, is refused, or runs into the ceiling. -/
theorem witness_RetriggerDrainsFirst :
    (let s := retriggered [0x00, 0x30, 0x00]
     s.halted = none ∧ s.params.variant = .base ∧ s.busy = true ∧ s.params.dmaPolicy = .interleaved 1
     ∧ nextIs (engineCalls (s.params.dmaMaxIterations - s.iterCount + 1)
        { s with dreg0 := 0x00, log := .retriggerWhileBusy :: s.log }) (fun u => u.halted == none) = true)
    ∧ (let s := retriggered [0x00, 0xD7, 0x80]
       refusedIs (engineCalls (s.params.dmaMaxIterations - s.iterCount + 1)
        { s with dreg0 := 0x00, log := .retriggerWhileBusy :: s.log }) .nestedDmaStart = true)
    ∧ (let s := { retriggered [0x00, 0x30, 0x00] with iterCount := 4 }
       nextIs (engineCalls (s.params.dmaMaxIterations - s.iterCount + 1)
        { s with dreg0 := 0x00, log := .retriggerWhileBusy :: s.log }) (fun u => u.halted == some (.runawayDma 0x40B)) = true) := by
  decide

theorem witness_ExtendedStartRefused :
    (let s : State := { State.reset with params := { profileP0 with variant := .extended 8 } }
     s.halted = none ∧ s.params.variant = .extended 8) := by decide

theorem witness_IdleAndCeilingSteps :
    State.reset.halted = none ∧ State.reset.busy = false
    ∧ (let s : State := { State.reset with busy := true, iterCount := 100000 }
       s.halted = none ∧ s.busy = true ∧ s.params.dmaMaxIterations ≤ s.iterCount) := by decide

theorem witness_FetchLatchesDescriptor :
    (let s : State := { State.reset with busy := true, lp := 0xFFFFF, iterCount := 99999 }
     s.halted = none ∧ s.busy = true ∧ s.phase = .fetch ∧ s.iterCount < s.params.dmaMaxIterations
     ∧ ∃ b : Nat → Byte, ∀ i, b i = physRead s (s.lp + i)) :=
  ⟨rfl, rfl, rfl, by decide, _, fun _ => rfl⟩

theorem witness_DmaStepRunsLatchedCommand :
    (let s := executing 0x61 (memSide 0x1000) (memSide 0x2000) 1
     s.halted = none ∧ s.busy = true ∧ s.phase = .execute ∧ s.iterCount < s.params.dmaMaxIterations
     ∧ decode s.params.implementedOps .cmd [s.cur.command] = .ok (.mix ⟨false, false, false, true, true, false⟩) []) := by
  decide

/-- The hypotheses of the four byte statements between memory sides and of UnknownStepLogsOnly, at the last byte and at
a full count. -/
theorem witness_byte_in_memory :
    (let s := executing 0 (memSide 0xFFFFF) (memSide 0x00000) 1
     s.halted = none ∧ s.cur.src.io = false ∧ s.cur.tgt.io = false ∧ 1 ≤ s.remaining)
    ∧ (let s := executing 0 (memSide 0xFFFFF) (memSide 0x2A000) 65536
       s.halted = none ∧ s.cur.src.io = false ∧ s.cur.tgt.io = false ∧ 1 ≤ s.remaining) := by decide

/-- An engine with an I/O target at each kind of address: a register, a bound port, an unimplemented one, another. -/
theorem witness_WriteToIoSide :
    [((0xFF701 : Addr20), (0xD701 : CpuAddr)), (0x0D703, 0xD703), (0x00100, 0xD100), (0x00900, 0xD900), (0x00800, 0xD800),
      (0xFF000, 0xD000), (0x00FFF, 0xDFFF)].all (fun w =>
        let s := { executing 0 (memSide 0x1000) (ioSide w.1) 1 with params := boundParams }
        s.halted == none && s.cur.tgt.io && !s.cur.src.io && decide (1 ≤ s.remaining)
        && decide (w.2.toNat = 0xD000 + s.tgtCur.toNat % 4096) && regIndex s.params w.2 != some 0) = true := by decide

/-- An I/O source at each kind of address, a register 0 among them. -/
theorem witness_CopyFromIoSide :
    [((0xFF700 : Addr20), (0xD700 : CpuAddr)), (0x00703, 0xD703), (0x00900, 0xD900), (0x00800, 0xD800), (0x00FFF, 0xDFFF)].all
      (fun w =>
        let s := { executing 0 (ioSide w.1) (memSide 0x2000) 1 with params := boundParams }
        s.halted == none && s.cur.src.io && !s.cur.tgt.io && decide (1 ≤ s.remaining)
        && decide (w.2.toNat = 0xD000 + s.srcCur.toNat % 4096)) = true := by decide

/-- Register 0 itself triggers; registers 1 and 3 and a memory side do not. -/
theorem witness_CommandsCompleteOrNest :
    State.reset.halted = none
    ∧ (let s := executing 0 (ioSide 0xD700) (ioSide 0xD700) 1
       ((sideOf s .tgt).io = true ∧ regIndex s.params (ioAddrOf (cursorOf s .tgt)) = some 0)
       ∧ ((sideOf s .src).io = true ∧ regIndex s.params (ioAddrOf (cursorOf s .src)) = some 0))
    ∧ (let s := executing 0 (ioSide 0xD701) (ioSide 0xD703) 1
       ¬ ((sideOf s .tgt).io = true ∧ regIndex s.params (ioAddrOf (cursorOf s .tgt)) = some 0)
       ∧ ¬ ((sideOf s .src).io = true ∧ regIndex s.params (ioAddrOf (cursorOf s .src)) = some 0))
    ∧ (let s := executing 0 (memSide 0x1000) (memSide 0x2000) 1
       (sideOf s .src).io = false ∧ (sideOf s .tgt).io = false ∧ 1 ≤ s.remaining
       ∧ memBindingAt s.params (cursorAddr s .src) = none ∧ memBindingAt s.params (cursorAddr s .tgt) = none) := by decide

theorem witness_CallsAreCounted :
    (let s := { retriggered [0x00, 0x30, 0x00] with params := { profileP0 with dmaMaxIterations := 2 } }
     s.halted = none ∧ s.iterCount = 0 ∧ s.iterCount + 2 ≤ s.params.dmaMaxIterations
     ∧ nextIs (engineCalls 2 s) (fun t => t.halted == none && t.busy) = true) := by decide

/-- ReadyToRun for each of the four commands, with ranges that meet the disjointness conditions of CopyRun, MixRun and
SwapRun. -/
theorem witness_runs :
    (∀ cmd ∈ [((0x00 : Byte), Op.copy), (0x61, .mix), (0x02, .swap), (0x07, .fill)],
      ReadyToRun (executing cmd.1 (memSide 0xFFFFE) (memSide 0x02000) 4) cmd.2)
    ∧ (let s := executing 0x02 (memSide 0xFFFFE) (memSide 0x02000) 4
       s.cur.src.io = false ∧ s.cur.tgt.io = false ∧ s.remaining = 4
       ∧ (∀ j k : Fin 4, sideAddr s .src j.val ≠ sideAddr s .tgt k.val)
       ∧ (∀ j k : Fin 4, j.val < k.val → sideAddr s .tgt j.val ≠ sideAddr s .tgt k.val)
       ∧ (∀ j k : Fin 4, j.val < k.val → sideAddr s .src j.val ≠ sideAddr s .src k.val)) := by
  refine ⟨fun cmd h => ?_, by decide⟩
  simp only [List.mem_cons, List.not_mem_nil, or_false] at h
  rcases h with rfl | rfl | rfl | rfl <;>
    exact ⟨rfl, rfl, rfl, rfl, by decide, by decide⟩

theorem witness_DrainEqualsInterleaved :
    State.reset.halted = none ∧ State.reset.busy = false ∧ State.reset.params.variant = .base
    ∧ State.reset.params.dmaPolicy = .drain := by decide

theorem witness_ProtectedBytesNeverChange :
    nextIs (exec (.cpuWrite 0x8000 0x99) (State.reset.setBank { resetBank with mapMask := 0x10, mapOffsetHigh := 0x1A000 }))
      (fun _ => true) = true
    ∧ writableAt profileP0 (wrapPhys profileP0 0x22000) = false ∧ writableAt profileP0 (wrapPhys profileP0 0x3FFFF) = false := by
  decide

theorem witness_BankWritersAreTheFourPorts :
    nextIs (exec (.cpuWrite 0xD020 0x99) State.reset) (fun _ => true) = true ∧ State.reset.params.ioBindings = []
    ∧ State.reset.params.memBindings = [] ∧ Instr.cpuWrite 0xD020 0x99 ≠ .reset := by decide

theorem witness_EngineIgnoresBanking : State.reset.params.ioBindings = [] ∧ State.reset.params.memBindings = [] := ⟨rfl, rfl⟩

theorem witness_StepKeepsTheInvariant : State.reset.Inv ∧ step State.reset = .next State.reset :=
  ⟨⟨rfl, rfl, rfl, by decide, by decide, by decide, by decide, by decide,
    by decide, by decide, by decide, by decide, rfl⟩, rfl⟩

theorem witness_StepRunsTheDecodedInstruction :
    (let s := executing 0x03 (memSide 0x42) (memSide 0x3000) 1
     engineTurn s = true ∧ s.phase = .execute ∧ s.iterCount < s.params.dmaMaxIterations
     ∧ decode s.params.implementedOps .cmd [s.cur.command] = .ok (.fill plain) [])
    ∧ (let s : State := withBytes 0x400 [0x00, 0x04, 0x00, 0x00, 0x10, 0x00, 0x00, 0x20, 0x00, 0x00, 0x00]
          { State.reset with busy := true, lp := 0x400 }
       engineTurn s = true ∧ s.phase = .fetch ∧ s.iterCount < s.params.dmaMaxIterations
       ∧ decode s.params.implementedOps .desc11 (descriptorBytes s)
        = .ok (.desc11 ⟨0x00, 4, ⟨0x01000, false, false, false, false⟩, ⟨0x02000, false, false, false, false⟩, 0⟩) [])
    ∧ (let s : State := { State.reset with inputs := [.dmaStep, .reset] }
       engineTurn s = false ∧ s.inputs = .dmaStep :: [.reset])
    ∧ interleaved.params.dmaPolicy = .interleaved 1 ∧ State.reset.params.dmaPolicy = .drain ∧ State.reset.halted = none := by
  decide

theorem witness_EndOfChain :
    (let s := executing 0x03 (memSide 0x42) (memSide 0x3000) 1
     s.busy = true ∧ nextIs (exec .dmaStep s) (fun t => !t.busy) = true) := by decide

theorem witness_LegalMapCoversOnce :
    profileP0.legal = true ∧ 0 < profileP0.physSize ∧ 0xFFFFF < profileP0.physSize := by decide

theorem witness_DecodeOfEncode :
    WellFormed profileP0 (.copy plain) = true ∧ encode (.copy plain) = some [0x00]
    ∧ WellFormed profileP0 .dmaRegReadStatus = true ∧ encode .dmaRegReadStatus = some [0x03] := by decide

theorem witness_EncodeOfDecode :
    decode profileP0.implementedOps .cmd [0x61, 0x07] = .ok (.mix ⟨false, false, false, true, true, false⟩) [0x07]
    ∧ 11 ≤ (List.replicate 11 (0 : Byte)).length := by decide

end Sys2Proof.Tests
end

section
/-! PROOFS. A turn of the driving loop is the meaning of what it decodes or takes from the queue (R9, R75, R185). -/

namespace Sys2Proof.Machine

/-! ### Whose turn it is -/

/-- The engine has a turn only in a running block with an active transfer (R75, R249). -/
theorem engineTurn_active {s : State} (h : engineTurn s = true) : s.halted = none ∧ s.busy = true := by
  simp only [engineTurn, Bool.and_eq_true, Option.isNone_iff_eq_none] at h
  exact h.1

/-- Under DRAIN an active engine of a running block has the turn (R190). -/
theorem engineTurn_drain {s : State} (hpol : s.params.dmaPolicy = .drain) (hrun : s.halted = none) :
    engineTurn s = s.busy := by
  simp [engineTurn, hpol, hrun]

/-- The engine's turn is one call of the engine, with one owed call less (R75, R185). -/
theorem step_engineTurn {s : State} (h : engineTurn s = true) :
    step s = engineStep (s.setSchedule s.inputs (s.credit - 1)) := by
  simp [step, loopTurn, h, (engineTurn_active h).1]

/-- A turn that is not the engine's takes the first waiting operation. -/
theorem step_input {s : State} {i : Instr} {rest : List Instr} (h : engineTurn s = false) (hin : s.inputs = i :: rest) :
    step s = exec i (s.setSchedule rest (creditAfter s.params i s.draws)).bumpDraws := by
  simp [step, loopTurn, h, hin]

/-! ### The engine's call, by phase -/

/-- Below the ceiling a call in Fetch is counted and latches the descriptor at `lp` (R185, R187). -/
theorem engineStep_fetch {s : State} (hbusy : s.busy = true) (hlt : s.iterCount < s.params.dmaMaxIterations)
    (hphase : s.phase = .fetch) : engineStep s = .next (fetchDescriptor (s.setIter (s.iterCount + 1))) := by
  simp [engineStep, hbusy, hphase, Nat.not_le.mpr hlt]

/-- Below the ceiling a call in Execute is counted and performs the latched command (R185, R188). -/
theorem engineStep_execute {s : State} (hbusy : s.busy = true) (hlt : s.iterCount < s.params.dmaMaxIterations)
    (hphase : s.phase = .execute) : engineStep s = executeStep (s.setIter (s.iterCount + 1)) := by
  simp [engineStep, hbusy, hphase, Nat.not_le.mpr hlt]

/-! ### What the decoded instruction means -/

/-- The instruction of a command byte means the operation the byte names (R103, R104, R188). -/
theorem exec_decodeCmd (ops : OpSet) (b : Byte) (s : State) :
    exec (decodeCmd ops b) s = whenRunning s (executeOp (decodeOp ops b) (cmdBitsOf b)) := by
  unfold decodeCmd
  cases decodeOp ops b with
  | copy => exact exec_copy s _
  | mix => exact exec_mix s _
  | swap => exact exec_swap s _
  | fill => exact exec_fill s _
  | unknown v => exact exec_unknown s v _

/-- An Execute step is the meaning of the latched command byte's instruction (R188). -/
theorem executeStep_eq_exec {s : State} (hrun : s.halted = none) :
    executeStep s = exec (decodeCmd s.params.implementedOps s.cur.command) s := by
  rw [exec_decodeCmd, whenRunning_running _ hrun, executeStep]

/-- A fetch is the meaning of the descriptor read at `lp` (R187). -/
theorem fetchDescriptor_eq_exec {s : State} (hrun : s.halted = none) :
    .next (fetchDescriptor s) = exec (.desc11 (descriptorAt s)) s := by
  rw [exec_desc11, whenRunning_running _ hrun, fetchDescriptor]

/-! ### The engine's turn as a decoded instruction -/

/-- The state in which the instruction of the engine's turn runs: the call counted, one owed call less. -/
def countedCall (s : State) : State := { s with iterCount := s.iterCount + 1, credit := s.credit - 1 }

/-- The two updates a turn and the call it gives write. -/
theorem countedCall_eq (s : State) :
    countedCall s = (s.setSchedule s.inputs (s.credit - 1)).setIter (s.iterCount + 1) := rfl

@[simp] theorem countedCall_halted (s : State) : (countedCall s).halted = s.halted := rfl

/-- Below the ceiling the engine's turn in Execute is the meaning of the latched command byte (R188). -/
theorem step_execute {s : State} {i : Instr} (hturn : engineTurn s = true) (hphase : s.phase = .execute)
    (hlt : s.iterCount < s.params.dmaMaxIterations)
    (hdec : decode s.params.implementedOps .cmd [s.cur.command] = .ok i []) :
    step s = exec i (countedCall s) := by
  obtain ⟨hrun, hbusy⟩ := engineTurn_active hturn
  obtain rfl : decodeCmd s.params.implementedOps s.cur.command = i := by simpa [decode] using hdec
  calc step s
      = engineStep (s.setSchedule s.inputs (s.credit - 1)) := step_engineTurn hturn
    _ = executeStep (countedCall s) := by
        rw [countedCall_eq]; exact engineStep_execute hbusy hlt hphase
    _ = exec (decodeCmd s.params.implementedOps s.cur.command) (countedCall s) :=
        executeStep_eq_exec (by simpa using hrun)

/-- Below the ceiling the engine's turn in Fetch is the meaning of the bytes at `lp` (R187). -/
theorem step_fetch {s : State} {i : Instr} (hturn : engineTurn s = true) (hphase : s.phase = .fetch)
    (hlt : s.iterCount < s.params.dmaMaxIterations)
    (hdec : decode s.params.implementedOps .desc11 (descriptorBytes s) = .ok i []) :
    step s = exec i (countedCall s) := by
  obtain ⟨hrun, hbusy⟩ := engineTurn_active hturn
  obtain rfl : Instr.desc11 (descriptorAt s) = i := by simpa [decode_descriptorBytes] using hdec
  calc step s
      = engineStep (s.setSchedule s.inputs (s.credit - 1)) := step_engineTurn hturn
    _ = .next (fetchDescriptor (countedCall s)) := by
        rw [countedCall_eq]; exact engineStep_fetch hbusy hlt hphase
    _ = exec (.desc11 (descriptorAt s)) (countedCall s) := fetchDescriptor_eq_exec (by simpa using hrun)

/-- Settles O55, from the equation of the turn in each phase and of the turn that takes a waiting operation. -/
theorem stepRunsTheDecodedInstruction : Obligations.StepRunsTheDecodedInstruction := by
  unfold Obligations.StepRunsTheDecodedInstruction
  intro s i
  exact ⟨step_execute, step_fetch, fun _ => step_input, fun _ hpol => creditAfter_le hpol i s.draws, engineTurn_drain⟩

end Sys2Proof.Machine
end

section
/-! PROOFS. The regions of PhysicalStore under a legal configuration, and the state after reset (R5, R30, R41). -/

/-! ### The regions of a legal configuration -/

namespace Sys2Proof

theorem PhysRegion.contains_iff (r : PhysRegion) (a : Nat) :
    r.contains a = true ↔ r.base ≤ a ∧ a < r.base + r.size := by
  simp [PhysRegion.contains]

theorem PhysRegion.tile_cons (r : PhysRegion) (rs : List PhysRegion) (start stop : Nat) :
    PhysRegion.tile (r :: rs) start stop = true
      ↔ r.base = start ∧ 0 < r.size ∧ PhysRegion.tile rs (start + r.size) stop = true := by
  simp [PhysRegion.tile, and_assoc]

/-- Every region of a tiling begins at or after its start (R30). -/
theorem PhysRegion.tile_base_le {rs : List PhysRegion} {start stop : Nat} (h : PhysRegion.tile rs start stop = true)
    {q : PhysRegion} (hq : q ∈ rs) : start ≤ q.base := by
  induction rs generalizing start with
  | nil => cases hq
  | cons r rs ih =>
    obtain ⟨hbase, -, hrest⟩ := (PhysRegion.tile_cons r rs start stop).mp h
    obtain rfl | hq := List.mem_cons.mp hq
    · exact hbase.ge
    · have := ih hrest hq
      omega

/-- An address inside a tiling lies in exactly one of its regions, the first that holds it (R30). -/
theorem PhysRegion.tile_covers_once {rs : List PhysRegion} {start stop a : Nat}
    (h : PhysRegion.tile rs start stop = true) (hlo : start ≤ a) (hhi : a < stop) :
    ∃ r, rs.find? (fun r => r.contains a) = some r ∧ r ∈ rs ∧ r.contains a = true
      ∧ ∀ q, q ∈ rs → q.contains a = true → q = r := by
  induction rs generalizing start with
  | nil =>
    have : start = stop := by simpa [PhysRegion.tile] using h
    omega
  | cons r rs ih =>
    obtain ⟨hbase, -, hrest⟩ := (PhysRegion.tile_cons r rs start stop).mp h
    by_cases ha : r.contains a = true
    · refine ⟨r, by simp [ha], List.mem_cons_self, ha, fun q hq hqa => ?_⟩
      obtain rfl | hq := List.mem_cons.mp hq
      · rfl
      · have hle := PhysRegion.tile_base_le hrest hq
        rw [PhysRegion.contains_iff] at ha hqa
        omega
    · have hafter : start + r.size ≤ a := by
        rw [PhysRegion.contains_iff] at ha
        omega
      obtain ⟨p, hfind, hmem, hpa, huniq⟩ := ih hrest hafter
      refine ⟨p, by simp [ha, hfind], List.mem_cons_of_mem r hmem, hpa, fun q hq hqa => ?_⟩
      obtain rfl | hq := List.mem_cons.mp hq
      · exact absurd hqa ha
      · exact huniq q hq hqa

/-- `PHYS_MAP` of a legal configuration tiles PhysicalStore (R5, R30). -/
theorem Params.legal_tile {p : Params} (h : p.legal = true) : PhysRegion.tile p.physMap 0 p.physSize = true := by
  simp only [Params.legal, Bool.and_eq_true, and_assoc] at h
  exact h.1

/-- Exactly the ROM regions of a legal configuration are not writable (R5, R30). -/
theorem Params.legal_writable {p : Params} (h : p.legal = true) {r : PhysRegion} (hr : r ∈ p.physMap) :
    r.writable = true ↔ r.kind ≠ .rom := by
  simp only [Params.legal, Bool.and_eq_true, and_assoc] at h
  obtain ⟨-, hall, -⟩ := h
  have hflag : r.writable = (r.kind != .rom) := by simpa using List.all_eq_true.mp hall r hr
  rw [hflag, bne_iff_ne]

end Sys2Proof

namespace Sys2Proof.Machine

/-! ### The state after reset -/

/-- The CPU port reads 7 while both its bytes are 0 (R140). -/
theorem cpuPort_resetBank : cpuPort resetBank = 7 := rfl

/-- The table after reset is that of vector T1: ROM under $A000 and $E000, I/O under $D000, the rest direct (R41). -/
theorem reset_tt_get (n : Region) : State.reset.tt.get n =
    if n = 13 then ⟨0, 0, 0, 0, true⟩
    else if n = 10 ∨ n = 11 ∨ n = 14 ∨ n = 15 then ⟨0x20000, 0, 0, 0, false⟩
    else ⟨0, 0, 0, 0, false⟩ := by
  have hentry : State.reset.tt.get n = entry profileP0 resetBank n := recompute_get profileP0 resetBank n
  rw [hentry]
  fin_cases n <;> rfl

/-- Settles O23, field by field, with the table read entry by entry. -/
theorem stateAfterReset : Obligations.StateAfterReset := by
  unfold Obligations.StateAfterReset
  exact ⟨rfl, cpuPort_resetBank, reset_tt_get, rfl, rfl, rfl, rfl, rfl, rfl, rfl, rfl, rfl⟩

/-- Settles O54: the table is rebuilt, nothing is stored, and the engine is idle with every width at 0. -/
theorem resetMeetsTheInvariant : Obligations.ResetMeetsTheInvariant where
  table := rfl
  physForm := reset_phys_wf
  physRange := rfl
  mbLow := Nat.two_pow_pos _
  mbHigh := Nat.two_pow_pos _
  mbSrc := Nat.two_pow_pos _
  mbTgt := Nat.two_pow_pos _
  lpRange := physSize_pos _
  remainingRange := Nat.zero_le _
  bytesLeft := nofun
  chainCont := nofun
  iterRange := Nat.zero_le _
  inputsIssued := rfl

/-! ### Writable bytes of a legal configuration -/

/-- A byte is as writable as its region (R62). -/
theorem writableAt_of_region {p : Params} {a : Nat} {r : PhysRegion} (h : regionAt p a = some r) :
    writableAt p a = r.writable := by
  simp [writableAt, h]

/-- Settles O57, from the tiling of PhysicalStore by induction over the regions. -/
theorem legalMapCoversOnce : Obligations.LegalMapCoversOnce := by
  unfold Obligations.LegalMapCoversOnce
  intro p a hlegal ha
  obtain ⟨r, hfind, hmem, hra, huniq⟩ := PhysRegion.tile_covers_once (Params.legal_tile hlegal) (Nat.zero_le a) ha
  refine ⟨r, hfind, hmem, hra, huniq, ?_⟩
  rw [writableAt_of_region hfind]
  exact Params.legal_writable hlegal hmem

end Sys2Proof.Machine
end

section
/-! PROOFS. What an operation of the block keeps: the principle that carries a property of the state through every
operation but the four mutations of BankConfig and Reset, who writes BankConfig (R21 to R27), and the invariant of the
machine. -/

namespace Sys2Proof.Machine

/-! ### Properties that accesses keep -/

/-- `t` differs from `s` at most in the DMA registers, the halt latch, the log, the I/O trace, the draw counter and the
byte returned to the CPU. -/
def QuietUpdate (s t : State) : Prop :=
  t = { s with dreg0 := t.dreg0, dreg1 := t.dreg1, dreg2 := t.dreg2, halted := t.halted, log := t.log,
               ioTrace := t.ioTrace, draws := t.draws, result := t.result }

/-- Does the platform bind a BankConfig port to any address (R5; assumption 10)? -/
def bindsPort (p : Params) : Prop := p.ioBindings ≠ [] ∨ p.memBindings ≠ []

/-- `P` is kept by every write that one access of the CPU or the engine is made of. -/
structure KeptByAccesses (P : State → Prop) : Prop where
  quiet : ∀ {s t}, P s → QuietUpdate s t → P t
  physWrite : ∀ pa v s, P s → P (physWrite pa v s)
  boundPort : ∀ b v s, bindsPort s.params → P s → P (portWrite b v s)

theorem bindsPort_of_bindingAt {p : Params} {a : CpuAddr} {b : BankPort} (h : bindingAt p a = some b) :
    bindsPort p := by
  refine .inl fun hnil => ?_
  simp [bindingAt, hnil] at h

theorem bindsPort_of_memBindingAt {p : Params} {a : Nat} {b : BankPort} (h : memBindingAt p a = some b) :
    bindsPort p := by
  refine .inr fun hnil => ?_
  simp [hnil] at h

namespace KeptByAccesses

variable {P : State → Prop}

theorem memStore (K : KeptByAccesses P) (pa : Nat) (v : Byte) {s : State} (hs : P s) : P (memStore pa v s) := by
  have hp : P (Machine.physWrite pa v s) := K.physWrite pa v s hs
  obtain ⟨b, hb, h⟩ | ⟨-, h⟩ := memStore_cases pa v s <;> rw [h]
  · refine K.boundPort b v _ ?_ hp
    rw [(physWrite_frame pa v s).params]
    exact bindsPort_of_memBindingAt hb
  · exact hp

theorem ioRead (K : KeptByAccesses P) (a : CpuAddr) {s : State} (hs : P s) : P (ioRead a s).2 := by
  obtain ⟨log, draws, h⟩ := ioRead_eq a s
  rw [h]
  exact K.quiet hs rfl

theorem ioWriteOther (K : KeptByAccesses P) (a : CpuAddr) (v : Byte) {s : State} (hs : P s) :
    P (ioWriteOther a v s) := by
  obtain ⟨hb, h⟩ | ⟨hb, h⟩ | ⟨hb, h⟩ | ⟨-, -, h⟩ | ⟨-, -, h⟩ := ioWriteOther_cases a v s <;> rw [h]
  · exact K.boundPort .ddr v s (bindsPort_of_bindingAt hb) hs
  · exact K.boundPort .data v s (bindsPort_of_bindingAt hb) hs
  · exact K.boundPort .overlay v s (bindsPort_of_bindingAt hb) hs
  · exact K.quiet hs rfl
  · exact hs

theorem ioWriteEngine (K : KeptByAccesses P) {a : CpuAddr} {v : Byte} {s t : State} (hs : P s)
    (h : ioWriteEngine a v s = .next t) : P t := by
  obtain ⟨-, k⟩ | ⟨-, k⟩ | ⟨-, k⟩ | ⟨-, k⟩ | ⟨-, k⟩ := ioWriteEngine_cases a v s <;> rw [k] at h <;> cases h
  · exact K.quiet hs rfl
  · exact K.quiet hs rfl
  · exact K.quiet hs rfl
  · exact K.ioWriteOther a v (K.quiet hs rfl)

theorem dmaRead (K : KeptByAccesses P) (n : SideName) {s : State} (hs : P s) : P (dmaRead n s).2 := by
  unfold Machine.dmaRead
  split
  · exact K.ioRead _ hs
  · exact hs

theorem dmaWrite (K : KeptByAccesses P) {n : SideName} {v : Byte} {s t : State} (hs : P s)
    (h : dmaWrite n v s = .next t) : P t := by
  unfold Machine.dmaWrite at h
  split at h
  · exact K.ioWriteEngine hs h
  · cases h
    exact K.memStore _ v hs

/-- The byte operation of every command keeps `P` (R210 to R214). -/
theorem bodyOf (K : KeptByAccesses P) {op : Op} {c : CmdBits} {s t : State} (hs : P s)
    (h : bodyOf op c s = .next t) : P t := by
  have hsrc := K.dmaRead .src hs
  have htgt := K.dmaRead .tgt hsrc
  cases op with
  | copy => exact K.dmaWrite hsrc h
  | mix => exact K.dmaWrite htgt h
  | swap =>
    obtain ⟨u, hu, ⟨-, hk⟩ | ⟨-, rfl⟩⟩ := andThen_next.mp h
    · exact K.dmaWrite (K.dmaWrite htgt hu) hk
    · exact K.dmaWrite htgt hu
  | fill => exact K.dmaWrite hs h
  | unknown v =>
    cases h
    exact K.quiet hs rfl

end KeptByAccesses

/-! ### Properties that operations keep -/

/-- `P` is kept by every access, by the arming of a chain and by every engine call of a running block. -/
structure KeptByEngine (P : State → Prop) : Prop extends KeptByAccesses P where
  arm : ∀ a s, P s → P (armEngine a s)
  call : ∀ s t, P s → s.halted = none → engineStep s = .next t → P t

/-- The four mutation operations of BankConfig, and Reset (R26). -/
def writesBank (i : Instr) : Bool :=
  match i with
  | .setMap _ _ _ _ _ | .writePortDdr _ | .writePortData _ | .writeOverlay _ | .reset => true
  | _ => false

/-- The operation that writes a BankConfig port (R154 to R156). -/
def portInstr (b : BankPort) (v : Byte) : Instr :=
  match b with
  | .ddr => .writePortDdr v
  | .data => .writePortData v
  | .overlay => .writeOverlay v

theorem exec_portInstr (b : BankPort) (v : Byte) (s : State) :
    exec (portInstr b v) s = whenRunning s (fun t => .next (portWrite b v t)) := by
  cases b <;> rfl

theorem writesBank_cases {i : Instr} (h : writesBank i = true) :
    (∃ m lo hi mlo mhi, i = .setMap m lo hi mlo mhi) ∨ (∃ b v, i = portInstr b v) ∨ i = .reset := by
  cases i with
  | setMap m lo hi mlo mhi => exact .inl ⟨m, lo, hi, mlo, mhi, rfl⟩
  | writePortDdr v => exact .inr (.inl ⟨.ddr, v, rfl⟩)
  | writePortData v => exact .inr (.inl ⟨.data, v, rfl⟩)
  | writeOverlay v => exact .inr (.inl ⟨.overlay, v, rfl⟩)
  | reset => exact .inr (.inr rfl)
  | _ => cases h

namespace KeptByEngine

variable {P : State → Prop}

theorem dmaRegWrite (K : KeptByEngine P) {i : BitVec 2} {v : Byte} {s t : State} (hs : P s) (hrun : s.halted = none)
    (h : dmaRegWrite i v s = .next t) : P t := by
  obtain ⟨-, k⟩ | ⟨-, k⟩ | ⟨-, k⟩ | ⟨-, k⟩ := dmaRegWrite_cases i v s <;> rw [k] at h
  · have hstored : P (s.setDreg0 v) := K.quiet hs rfl
    exact startDma_preserves (fun _ hs => K.quiet hs rfl) K.arm K.call hstored hrun h
  · cases h
    exact K.quiet hs rfl
  · cases h
    exact K.quiet hs rfl
  · cases h
    exact hs

theorem ioWriteCpu (K : KeptByEngine P) {a : CpuAddr} {v : Byte} {s t : State} (hs : P s) (hrun : s.halted = none)
    (h : ioWriteCpu a v s = .next t) : P t := by
  have hseen : P (s.pushIo (.write a v)) := K.quiet hs rfl
  obtain ⟨i, -, k⟩ | ⟨-, k⟩ := ioWriteCpu_cases a v s <;> rw [k] at h
  · exact K.dmaRegWrite hseen hrun h
  · cases h
    exact K.ioWriteOther a v hseen

theorem memRead (K : KeptByEngine P) {a : CpuAddr} {s t : State} (hs : P s) (h : memRead a s = .next t) : P t := by
  obtain ⟨pa, -, k⟩ | ⟨-, k⟩ | ⟨-, k⟩ := memRead_cases a s <;> rw [k] at h <;> cases h
  · exact K.quiet hs rfl
  · exact K.quiet (K.ioRead a hs) rfl
  · exact K.quiet hs rfl

theorem memWrite (K : KeptByEngine P) {a : CpuAddr} {v : Byte} {s t : State} (hs : P s) (hrun : s.halted = none)
    (h : memWrite a v s = .next t) : P t := by
  obtain ⟨pa, -, k⟩ | ⟨-, k⟩ | ⟨-, k⟩ := memWrite_cases a v s <;> rw [k] at h
  · cases h
    exact K.memStore pa v hs
  · exact K.ioWriteCpu hs hrun h
  · cases h
    exact K.quiet hs rfl

/-- Every operation of an agent but the four mutations of BankConfig and Reset keeps `P`. -/
theorem exec_agent (K : KeptByEngine P) {i : Instr} {s t : State} (hagent : isAgentOperation i = true)
    (hbank : writesBank i = false) (hs : P s) (h : exec i s = .next t) : P t := by
  have hrun : s.halted = none := exec_next_running h (by rintro rfl; cases hbank)
  cases i with
  | copy c | mix c | swap c | fill c | unknown opc c | desc11 d | addr3 side a => cases hagent
  | setMap m lo hi mlo mhi | writePortDdr v | writePortData v | writeOverlay v | reset => cases hbank
  | dmaRegWriteListLo v | dmaRegWriteListHi v | dmaRegWriteListBank v | dmaRegWriteStatus v =>
    exact K.dmaRegWrite hs hrun (whenRunning_next.mp h).2
  | dmaRegReadListLo | dmaRegReadListHi | dmaRegReadListBank | dmaRegReadStatus =>
    simp only [exec_dmaRegReadListLo, exec_dmaRegReadListHi, exec_dmaRegReadListBank, exec_dmaRegReadStatus,
      whenRunning_running _ hrun] at h
    cases h
    exact K.quiet hs rfl
  | cpuRead a | cpuFetch a => exact K.memRead hs (whenRunning_next.mp h).2
  | cpuWrite a v => exact K.memWrite hs hrun (whenRunning_next.mp h).2
  | dmaStep => exact K.call s t hs hrun (whenRunning_next.mp h).2

end KeptByEngine

/-! ### Properties of the parameters, BankConfig and the table alone -/

/-- `P` depends on the parameters, BankConfig and the table alone, and a write of a bound port keeps it. -/
structure BankProperty (P : State → Prop) : Prop where
  congr : ∀ {s t}, P s → t.params = s.params → t.cfg = s.cfg → t.tt = s.tt → P t
  boundPort : ∀ b v s, bindsPort s.params → P s → P (portWrite b v s)

/-- The tail of an Execute step leaves the parameters, BankConfig and the table alone (R188). -/
theorem executeTail_bank (c : CmdBits) (s : State) :
    (executeTail c s).params = s.params ∧ (executeTail c s).cfg = s.cfg ∧ (executeTail c s).tt = s.tt := by
  obtain ⟨-, h⟩ | ⟨-, -, h⟩ | ⟨-, -, h⟩ := executeTail_cases c s <;> rw [h] <;> exact ⟨rfl, rfl, rfl⟩

namespace BankProperty

variable {P : State → Prop}

theorem keptByAccesses (B : BankProperty P) : KeptByAccesses P where
  quiet hs h := B.congr hs (by rw [h]) (by rw [h]) (by rw [h])
  physWrite pa v s hs := by
    obtain ⟨m, h, -⟩ := physWrite_spec pa v s
    rw [h]
    exact B.congr hs rfl rfl rfl
  boundPort := B.boundPort

theorem executeTail (B : BankProperty P) (c : CmdBits) {s : State} (hs : P s) : P (executeTail c s) := by
  obtain ⟨hparams, hcfg, htt⟩ := executeTail_bank c s
  exact B.congr hs hparams hcfg htt

theorem latchDescriptor (B : BankProperty P) (d : Desc11) {s : State} (hs : P s) : P (latchDescriptor d s) := by
  rw [latchDescriptor_eq]
  exact B.congr hs rfl rfl rfl

theorem latchSide (B : BankProperty P) (n : SideName) (a : Addr3) {s : State} (hs : P s) : P (latchSide n a s) := by
  cases n <;> exact B.congr hs rfl rfl rfl

theorem executeOp (B : BankProperty P) {op : Op} {c : CmdBits} {s t : State} (hrun : s.halted = none) (hs : P s)
    (h : executeOp op c s = .next t) : P t := by
  obtain ⟨u, hu, rfl⟩ := (executeOp_next hrun).mp h
  exact B.executeTail c (B.keptByAccesses.bodyOf hs hu)

theorem keptByEngine (B : BankProperty P) : KeptByEngine P where
  toKeptByAccesses := B.keptByAccesses
  arm _ _ hs := B.congr hs rfl rfl rfl
  call s t hs hrun h := by
    obtain ⟨-, rfl⟩ | ⟨-, -, rfl⟩ | ⟨-, -, -, rfl⟩ | ⟨-, -, -, u, hu, rfl⟩ := engineStep_cases h hrun
    · exact hs
    · exact B.congr hs rfl rfl rfl
    · exact B.latchDescriptor _ (B.congr hs rfl rfl rfl)
    · have hcounted : P (s.setIter (s.iterCount + 1)) := B.congr hs rfl rfl rfl
      exact B.executeTail _ (B.keptByAccesses.bodyOf hcounted hu)

/-- Every instruction but the four mutations of BankConfig and Reset keeps `P`. -/
theorem exec_keeps (B : BankProperty P) {i : Instr} {s t : State} (hbank : writesBank i = false) (hs : P s)
    (h : exec i s = .next t) : P t := by
  have hrun : s.halted = none := exec_next_running h (by rintro rfl; cases hbank)
  cases hagent : isAgentOperation i with
  | true => exact B.keptByEngine.exec_agent hagent hbank hs h
  | false =>
    cases i with
    | copy c | mix c | swap c | fill c | unknown opc c => exact B.executeOp hrun hs (whenRunning_next.mp h).2
    | desc11 d =>
      rw [exec_desc11] at h
      cases (whenRunning_next.mp h).2
      exact B.latchDescriptor d hs
    | addr3 side a =>
      rw [exec_addr3] at h
      cases (whenRunning_next.mp h).2
      exact B.latchSide side a hs
    | _ => cases hagent

end BankProperty

/-! ### Who writes BankConfig -/

/-- The map fields of BankConfig, which SetMap and Reset write (R21 to R23). -/
def mapFieldsEq (c d : BankConfig) : Prop :=
  d.mapMask = c.mapMask ∧ d.mapOffsetLow = c.mapOffsetLow ∧ d.mapOffsetHigh = c.mapOffsetHigh
    ∧ d.mapMegabyteLow = c.mapMegabyteLow ∧ d.mapMegabyteHigh = c.mapMegabyteHigh

/-- A port's write leaves the map fields alone (R154 to R156). -/
theorem portWrite_mapFields (b : BankPort) (v : Byte) (s : State) : mapFieldsEq s.cfg (portWrite b v s).cfg := by
  cases b <;> exact ⟨rfl, rfl, rfl, rfl, rfl⟩

theorem portWrite_params (b : BankPort) (v : Byte) (s : State) : (portWrite b v s).params = s.params := by
  cases b <;> rfl

theorem mapFields_bankProperty (c : BankConfig) : BankProperty (fun t => mapFieldsEq c t.cfg) where
  congr hs _ hcfg _ := by rwa [hcfg]
  boundPort b v s _ hs := by cases b <;> exact hs

/-- On a platform that binds no address, no access changes BankConfig or the table. -/
theorem bank_bankProperty {p : Params} (hp : ¬ bindsPort p) (c : BankConfig) (tt : Vector Entry 16) :
    BankProperty (fun t => t.params = p ∧ t.cfg = c ∧ t.tt = tt) where
  congr hs hparams hcfg htt := by rwa [hparams, hcfg, htt]
  boundPort b v s hb hs := absurd (hs.1 ▸ hb) hp

theorem params_bankProperty (p : Params) : BankProperty (fun t => t.params = p) where
  congr hs hparams _ _ := by rwa [hparams]
  boundPort b v s _ hs := by rwa [portWrite_params]

/-- No instruction but SetMap and Reset writes the map fields (R26). -/
theorem exec_mapFields {i : Instr} {s t : State} (h : exec i s = .next t) (hreset : i ≠ .reset)
    (hmap : ∀ m a b c d, i ≠ .setMap m a b c d) : mapFieldsEq s.cfg t.cfg := by
  cases hbank : writesBank i with
  | false => exact (mapFields_bankProperty s.cfg).exec_keeps hbank ⟨rfl, rfl, rfl, rfl, rfl⟩ h
  | true =>
    obtain ⟨m, lo, hi, mlo, mhi, rfl⟩ | ⟨b, v, rfl⟩ | rfl := writesBank_cases hbank
    · exact absurd rfl (hmap m lo hi mlo mhi)
    · rw [exec_portInstr] at h
      cases (whenRunning_next.mp h).2
      exact portWrite_mapFields b v s
    · exact absurd rfl hreset

/-- On a platform that binds no address, only the four mutations and Reset write BankConfig and the table (R26, R27). -/
theorem exec_bank {i : Instr} {s t : State} (h : exec i s = .next t) (hp : ¬ bindsPort s.params)
    (hbank : writesBank i = false) : t.cfg = s.cfg ∧ t.tt = s.tt :=
  ((bank_bankProperty hp s.cfg s.tt).exec_keeps hbank ⟨rfl, rfl, rfl⟩ h).2

/-- Settles O51, from the principle for properties of the parameters, BankConfig and the table alone. -/
theorem bankWritersAreTheFourPorts : Obligations.BankWritersAreTheFourPorts := by
  unfold Obligations.BankWritersAreTheFourPorts
  intro i s t h hreset hmap
  refine ⟨exec_mapFields h hreset hmap, fun hio hmem hddr hdata hoverlay => exec_bank h ?_ ?_⟩
  · simp [bindsPort, hio, hmem]
  · refine Bool.eq_false_iff.mpr fun hbank => ?_
    obtain ⟨m, lo, hi, mlo, mhi, rfl⟩ | ⟨b, v, rfl⟩ | rfl := writesBank_cases hbank
    · exact hmap m lo hi mlo mhi rfl
    · cases b with
      | ddr => exact hddr v rfl
      | data => exact hdata v rfl
      | overlay => exact hoverlay v rfl
    · exact hreset rfl

/-! ### The invariant of the machine -/

/-- No instruction writes the configuration record (R5). -/
theorem exec_params {i : Instr} {s t : State} (h : exec i s = .next t) : t.params = s.params := by
  cases hbank : writesBank i with
  | false => exact (params_bankProperty s.params).exec_keeps hbank rfl h
  | true =>
    obtain ⟨m, lo, hi, mlo, mhi, rfl⟩ | ⟨b, v, rfl⟩ | rfl := writesBank_cases hbank
    · rw [exec_setMap] at h
      cases (whenRunning_next.mp h).2
      rfl
    · rw [exec_portInstr] at h
      cases (whenRunning_next.mp h).2
      exact portWrite_params b v s
    · cases h
      rfl

namespace State.Inv

theorem quiet {s t : State} (hs : s.Inv) (h : QuietUpdate s t) : t.Inv := by
  rw [h]
  exact { hs with }

/-- BankConfig is written with its table and with selectors of `MB_BITS` bits (R23, R28). -/
theorem setBank {s : State} (hs : s.Inv) {c : BankConfig} (hlow : c.mapMegabyteLow < 2 ^ s.params.mbBits)
    (hhigh : c.mapMegabyteHigh < 2 ^ s.params.mbBits) : (s.setBank c).Inv :=
  { hs with table := rfl, mbLow := hlow, mbHigh := hhigh }

theorem physWrite {s : State} (hs : s.Inv) (pa : Nat) (v : Byte) : (physWrite pa v s).Inv := by
  obtain ⟨m, h, -, hwf, hwithin⟩ := physWrite_spec pa v s
  rw [h]
  exact { hs with physForm := hwf hs.physForm, physRange := hwithin hs.physRange }

theorem portWrite {s : State} (hs : s.Inv) (b : BankPort) (v : Byte) : (portWrite b v s).Inv := by
  cases b <;> exact hs.setBank hs.mbLow hs.mbHigh

theorem keptByAccesses : KeptByAccesses State.Inv where
  quiet := quiet
  physWrite pa v _ hs := hs.physWrite pa v
  boundPort b v _ _ hs := hs.portWrite b v

/-- `start` writes a list address of `PA_BITS` bits and a counter of 0, and waits in Fetch (R182). -/
theorem armEngine {s : State} (hs : s.Inv) (a : BitVec 24) : (armEngine a s).Inv :=
  { hs with
    lpRange := wrapPhys_lt _ _
    bytesLeft := nofun
    chainCont := nofun
    iterRange := Nat.zero_le _ }

theorem setIter {s : State} (hs : s.Inv) {n : Nat} (hn : n ≤ s.params.dmaMaxIterations) : (s.setIter n).Inv :=
  { hs with iterRange := hn }

/-- A fetched descriptor has at least one byte, and its sides the megabyte selector 0 (R105, R107, R187). -/
theorem latchDescriptor {s : State} (hs : s.Inv) (d : Desc11) : (latchDescriptor d s).Inv := by
  rw [latchDescriptor_eq]
  exact { hs with
    mbSrc := Nat.two_pow_pos _
    mbTgt := Nat.two_pow_pos _
    lpRange := wrapPhys_lt _ _
    remainingRange := (countOf_pos d.length).2
    bytesLeft := fun _ _ => (countOf_pos d.length).1
    chainCont := nofun }

/-- In an Execute step the engine is not waiting to fetch, so `chain_cont` is clear until the tail sets it; the tail
leaves Execute or the busy state when `remaining` reaches 0 (R188, R189). -/
theorem executeTail {s : State} (hs : s.Inv) (hbusy : s.busy = true) (c : CmdBits) : (executeTail c s).Inv := by
  have hrange : s.remaining - 1 ≤ 65536 := (Nat.sub_le _ _).trans hs.remainingRange
  obtain ⟨hleft, h⟩ | ⟨-, -, h⟩ | ⟨-, -, h⟩ := executeTail_cases c s <;> rw [h]
  · exact { hs with remainingRange := hrange, bytesLeft := fun _ _ => Nat.pos_of_ne_zero hleft }
  · exact { hs with
      remainingRange := Nat.zero_le _
      bytesLeft := nofun
      chainCont := fun _ => ⟨hbusy, rfl⟩ }
  · exact { hs with
      remainingRange := Nat.zero_le _
      bytesLeft := nofun
      chainCont := nofun }

/-- Every engine call keeps the invariant (R185 to R188). -/
theorem engineStep {s t : State} (hs : s.Inv) (hrun : s.halted = none) (h : engineStep s = .next t) : t.Inv := by
  obtain ⟨-, rfl⟩ | ⟨-, -, rfl⟩ | ⟨-, hlt, -, rfl⟩ | ⟨hbusy, hlt, -, u, hu, rfl⟩ := engineStep_cases h hrun
  · exact hs
  · exact hs.quiet rfl
  · exact (hs.setIter hlt).latchDescriptor _
  · have hbody : u.Inv := keptByAccesses.bodyOf (hs.setIter hlt) hu
    exact hbody.executeTail ((bodyOf_frame hu).busy.trans hbusy) _

theorem keptByEngine : KeptByEngine State.Inv where
  toKeptByAccesses := keptByAccesses
  arm a _ hs := hs.armEngine a
  call _ _ := engineStep

/-- Reset clears BankConfig and the engine's flags, and what it leaves unspecified is drawn within its width (R270). -/
theorem resetOp {s : State} (hs : s.Inv) : (resetOp s).Inv :=
  { hs with
    table := rfl
    mbLow := Nat.two_pow_pos _
    mbHigh := Nat.two_pow_pos _
    mbSrc := megabyte_lt _ _
    mbTgt := megabyte_lt _ _
    lpRange := wrapPhys_lt _ _
    remainingRange := Nat.le_of_lt_succ (Config.freeRemaining s.draws).isLt
    bytesLeft := nofun
    chainCont := nofun
    iterRange := Nat.zero_le _ }

/-- Every operation of an agent keeps the invariant. -/
theorem exec_agent {i : Instr} {s t : State} (hs : s.Inv) (hagent : isAgentOperation i = true)
    (h : exec i s = .next t) : t.Inv := by
  cases hbank : writesBank i with
  | false => exact keptByEngine.exec_agent hagent hbank hs h
  | true =>
    obtain ⟨m, lo, hi, mlo, mhi, rfl⟩ | ⟨b, v, rfl⟩ | rfl := writesBank_cases hbank
    · rw [exec_setMap] at h
      cases (whenRunning_next.mp h).2
      exact hs.setBank (megabyte_lt s.params mlo) (megabyte_lt s.params mhi)
    · rw [exec_portInstr] at h
      cases (whenRunning_next.mp h).2
      exact hs.portWrite b v
    · cases h
      exact hs.resetOp

/-- The driving loop's bookkeeping keeps the invariant while only agents' operations wait (R9). -/
theorem setSchedule {s : State} (hs : s.Inv) {is : List Instr} (his : is.all isAgentOperation = true) (n : Nat) :
    (s.setSchedule is n).Inv :=
  { hs with inputsIssued := his }

end State.Inv

/-- Settles O53, by the turn the step takes: an engine call, an operation of an agent, or none. -/
theorem stepKeepsTheInvariant : Obligations.StepKeepsTheInvariant := by
  unfold Obligations.StepKeepsTheInvariant
  intro s t hs h
  obtain ⟨-, hexec⟩ | ⟨-, i, rest, hin, hexec⟩ | ⟨-, -, -, rfl⟩ := step_cases h
  · have hparams := exec_params hexec
    exact ⟨(hs.setSchedule hs.inputsIssued _).exec_agent rfl hexec, hparams⟩
  · obtain ⟨hi, hrest⟩ : isAgentOperation i = true ∧ rest.all isAgentOperation = true := by
      simpa [hin] using hs.inputsIssued
    have hready : (s.setSchedule rest (creditAfter s.params i s.draws)).bumpDraws.Inv :=
      (hs.setSchedule hrest _).quiet rfl
    have hparams := exec_params hexec
    exact ⟨hready.exec_agent hi hexec, hparams⟩
  · exact ⟨hs, rfl⟩

end Sys2Proof.Machine
end

section
/-! PROOFS. What every operation keeps of PhysicalStore: the principle that carries a property of the stored bytes through
every instruction, and the bytes no write can reach (R62, R251). -/

namespace Sys2Proof.Machine

/-! ### Properties of the parameters and PhysicalStore alone -/

/-- `P` depends on the parameters and PhysicalStore alone, and `PhysWrite` keeps it. -/
structure StoreProperty (P : State → Prop) : Prop where
  congr : ∀ {s t}, P s → t.params = s.params → t.phys = s.phys → P t
  physWrite : ∀ pa v s, P s → P (physWrite pa v s)

/-- The tail of an Execute step leaves the parameters and PhysicalStore alone (R188). -/
theorem executeTail_store (c : CmdBits) (s : State) :
    (executeTail c s).params = s.params ∧ (executeTail c s).phys = s.phys := by
  obtain ⟨-, h⟩ | ⟨-, -, h⟩ | ⟨-, -, h⟩ := executeTail_cases c s <;> rw [h] <;> exact ⟨rfl, rfl⟩

/-- The fetch leaves the parameters and PhysicalStore alone (R187). -/
theorem latchDescriptor_store (d : Desc11) (s : State) :
    (latchDescriptor d s).params = s.params ∧ (latchDescriptor d s).phys = s.phys := by
  rw [latchDescriptor_eq]
  exact ⟨rfl, rfl⟩

theorem portWrite_phys (b : BankPort) (v : Byte) (s : State) : (portWrite b v s).phys = s.phys := by
  cases b <;> rfl

namespace StoreProperty

variable {P : State → Prop}

theorem portWrite (S : StoreProperty P) (b : BankPort) (v : Byte) {s : State} (hs : P s) : P (portWrite b v s) :=
  S.congr hs (portWrite_params b v s) (portWrite_phys b v s)

theorem latchDescriptor (S : StoreProperty P) (d : Desc11) {s : State} (hs : P s) : P (latchDescriptor d s) :=
  S.congr hs (latchDescriptor_store d s).1 (latchDescriptor_store d s).2

theorem keptByAccesses (S : StoreProperty P) : KeptByAccesses P where
  quiet hs h := S.congr hs (by rw [h]) (by rw [h])
  physWrite := S.physWrite
  boundPort b v _ _ hs := S.portWrite b v hs

/-- A byte operation and its tail keep `P` (R188). -/
theorem bodyOf_executeTail (S : StoreProperty P) {op : Op} {c : CmdBits} {s u : State} (hs : P s)
    (h : bodyOf op c s = .next u) : P (executeTail c u) :=
  S.congr (S.keptByAccesses.bodyOf hs h) (executeTail_store c u).1 (executeTail_store c u).2

theorem executeOp (S : StoreProperty P) {op : Op} {c : CmdBits} {s t : State} (hrun : s.halted = none) (hs : P s)
    (h : executeOp op c s = .next t) : P t := by
  obtain ⟨u, hu, rfl⟩ := (executeOp_next hrun).mp h
  exact S.bodyOf_executeTail hs hu

theorem keptByEngine (S : StoreProperty P) : KeptByEngine P where
  toKeptByAccesses := S.keptByAccesses
  arm _ _ hs := S.congr hs rfl rfl
  call s t hs hrun h := by
    have hcounted : P (s.setIter (s.iterCount + 1)) := S.congr hs rfl rfl
    obtain ⟨-, rfl⟩ | ⟨-, -, rfl⟩ | ⟨-, -, -, rfl⟩ | ⟨-, -, -, u, hu, rfl⟩ := engineStep_cases h hrun
    · exact hs
    · exact S.congr hs rfl rfl
    · exact S.latchDescriptor _ hcounted
    · exact S.bodyOf_executeTail hcounted hu

/-- The four mutations of BankConfig and Reset leave PhysicalStore alone (R153 to R156, R270). -/
theorem exec_bank (S : StoreProperty P) {i : Instr} {s t : State} (hbank : writesBank i = true) (hs : P s)
    (h : exec i s = .next t) : P t := by
  obtain ⟨m, lo, hi, mlo, mhi, rfl⟩ | ⟨b, v, rfl⟩ | rfl := writesBank_cases hbank
  · rw [exec_setMap] at h
    cases (whenRunning_next.mp h).2
    exact S.congr hs rfl rfl
  · rw [exec_portInstr] at h
    cases (whenRunning_next.mp h).2
    exact S.portWrite b v hs
  · cases h
    exact S.congr hs rfl rfl

/-- Every instruction keeps `P`, however long the transfer it starts. -/
theorem exec_keeps (S : StoreProperty P) {i : Instr} {s t : State} (hs : P s) (h : exec i s = .next t) : P t := by
  cases hbank : writesBank i with
  | true => exact S.exec_bank hbank hs h
  | false =>
    have hrun : s.halted = none := exec_next_running h (by rintro rfl; cases hbank)
    cases hagent : isAgentOperation i with
    | true => exact S.keptByEngine.exec_agent hagent hbank hs h
    | false =>
      cases i with
      | copy c | mix c | swap c | fill c | unknown opc c => exact S.executeOp hrun hs (whenRunning_next.mp h).2
      | desc11 d =>
        rw [exec_desc11] at h
        cases (whenRunning_next.mp h).2
        exact S.latchDescriptor d hs
      | addr3 side a =>
        rw [exec_addr3] at h
        cases (whenRunning_next.mp h).2
        cases side <;> exact S.congr hs rfl rfl
      | _ => cases hagent

end StoreProperty

/-! ### Bytes that are not writable -/

/-- A byte that is not writable keeps its value: `PhysWrite` discards every write to it (R62). -/
theorem protectedByte_storeProperty {p : Params} {a : Nat} (hro : writableAt p (wrapPhys p a) = false) (b : Byte) :
    StoreProperty (fun t => t.params = p ∧ physRead t a = b) where
  congr hs hparams hphys := ⟨hparams.trans hs.1, (physRead_congr hparams hphys a).trans hs.2⟩
  physWrite pa v s := by
    rintro ⟨rfl, hread⟩
    refine ⟨(physWrite_frame pa v s).params, ?_⟩
    rw [physRead_physWrite, if_neg, hread]
    rintro ⟨hsame, hw⟩
    rw [hsame, hro] at hw
    cases hw

/-- Settles O50, from the principle for properties of the parameters and PhysicalStore alone. -/
theorem protectedBytesNeverChange : Obligations.ProtectedBytesNeverChange := by
  unfold Obligations.ProtectedBytesNeverChange
  intro i s t a h hro
  exact ((protectedByte_storeProperty hro (physRead s a)).exec_keeps ⟨rfl, rfl⟩ h).2

end Sys2Proof.Machine
end

section
/-! PROOFS. One access of the engine by the address it reaches, and COPY and FILL with an I/O side (R63, R65, R210, R213). -/

namespace Sys2Proof.Machine

/-! ### The accesses as the relations of the statements -/

/-- The I/O address of a cursor is $D000 plus its low 12 bits (R65). -/
theorem ioAddrOf_toNat (c : Addr20) : (ioAddrOf c).toNat = 0xD000 + c.toNat % 4096 := by
  have hdisjoint : 0xD000 + c.toNat % 4096 = 0xD000 ||| c.toNat % 4096 :=
    Nat.two_pow_add_eq_or_of_lt (i := 12) (Nat.mod_lt _ (by decide)) 13
  have hlt : c.toNat % 4096 < 65536 := by omega
  rw [hdisjoint, ioAddrOf]
  simp [Nat.mod_eq_of_lt hlt]

theorem ioAddrOf_eq {c : Addr20} {a : CpuAddr} (h : a.toNat = 0xD000 + c.toNat % 4096) : ioAddrOf c = a :=
  BitVec.eq_of_toNat_eq ((ioAddrOf_toNat c).trans h.symm)

/-- Every `IoRead` is one of the three reads of `ioReads` (R63). -/
theorem ioRead_reads (a : CpuAddr) (s : State) : ioReads s a (ioRead a s).1 (ioRead a s).2 := by
  obtain ⟨i, hi, h⟩ | ⟨hi, hu, h⟩ | ⟨hi, hu, v, h⟩ := ioRead_cases a s <;> rw [h]
  · exact .inl ⟨i, hi, rfl, rfl⟩
  · exact .inr (.inl ⟨hi, hu, rfl, rfl⟩)
  · exact .inr (.inr ⟨hi, hu, rfl⟩)

theorem ioRead_phys (a : CpuAddr) (s : State) : (ioRead a s).2.phys = s.phys := by
  obtain ⟨log, draws, h⟩ := ioRead_eq a s
  rw [h]

/-- A port's write is what `reachPort` does at its binding (R154 to R156). -/
theorem portWrite_eq_reachPort (b : BankPort) (v : Byte) (s : State) : portWrite b v s = reachPort (some b) v s := by
  cases b <;> rfl

@[simp] theorem reachPort_params (b : Option BankPort) (v : Byte) (s : State) : (reachPort b v s).params = s.params := by
  cases b <;> rfl

@[simp] theorem reachPort_phys (b : Option BankPort) (v : Byte) (s : State) : (reachPort b v s).phys = s.phys := by
  cases b <;> rfl

/-- An address bound to a port is implemented (R63(d); assumption 9). -/
theorem unimplementedAt_of_bindingAt {p : Params} {a : CpuAddr} {b : BankPort} (h : bindingAt p a = some b) :
    unimplementedAt p a = false := by
  simp [unimplementedAt, h]

/-- An `IoWrite` outside the DMA registers reaches the bound port, logs, or does nothing (R63(b), (d)). -/
theorem ioWriteOther_eq (a : CpuAddr) (v : Byte) (s : State) :
    (unimplementedAt s.params a = true ∧ ioWriteOther a v s = { s with log := .unimplementedIo a :: s.log })
    ∨ (unimplementedAt s.params a = false ∧ ioWriteOther a v s = reachPort (bindingAt s.params a) v s) := by
  cases hb : bindingAt s.params a with
  | some b => exact .inr ⟨unimplementedAt_of_bindingAt hb, by simp [ioWriteOther, hb, portWrite_eq_reachPort]⟩
  | none =>
    cases hu : unimplementedAt s.params a with
    | true => exact .inl ⟨rfl, by simp [ioWriteOther, hb, hu, State.pushLog]⟩
    | false => exact .inr ⟨rfl, by simp [ioWriteOther, hb, hu, reachPort]⟩

/-- Away from DMA register 0 the engine's `IoWrite` completes, as one of the writes of `ioWrites` (R63, R191). -/
theorem ioWriteEngine_writes {a : CpuAddr} (v : Byte) {s : State} (h : regIndex s.params a ≠ some 0) :
    ∃ u, ioWrites s a v u ∧ ioWriteEngine a v s = .next u := by
  obtain ⟨h0, -⟩ | ⟨h1, k⟩ | ⟨h2, k⟩ | ⟨h3, k⟩ | ⟨hnone, k⟩ := ioWriteEngine_cases a v s
  · exact absurd h0 h
  · exact ⟨_, ⟨_, rfl, .inl ⟨h1, rfl⟩⟩, k⟩
  · exact ⟨_, ⟨_, rfl, .inr (.inl ⟨h2, rfl⟩)⟩, k⟩
  · exact ⟨_, ⟨_, rfl, .inr (.inr (.inl ⟨h3, rfl⟩))⟩, k⟩
  · obtain ⟨hu, ho⟩ | ⟨hu, ho⟩ := ioWriteOther_eq a v (s.pushIo (.write a v)) <;> rw [ho] at k
    · exact ⟨_, ⟨_, rfl, .inr (.inr (.inr (.inl ⟨hnone, hu, rfl⟩)))⟩, k⟩
    · exact ⟨_, ⟨_, rfl, .inr (.inr (.inr (.inr ⟨hnone, hu, rfl⟩)))⟩, k⟩

/-- An `IoWrite` by the engine changes no byte of PhysicalStore (R63). -/
theorem ioWrites_phys {s t : State} {a : CpuAddr} {v : Byte} (h : ioWrites s a v t) : t.phys = s.phys := by
  obtain ⟨u, rfl, ⟨-, rfl⟩ | ⟨-, rfl⟩ | ⟨-, rfl⟩ | ⟨-, -, rfl⟩ | ⟨-, -, rfl⟩⟩ := h
  · rfl
  · rfl
  · rfl
  · rfl
  · rw [reachPort_phys]

/-- What is stored depends on the parameters and PhysicalStore alone (R62). -/
theorem byteStored_congr {s t : State} (hp : t.params = s.params) (hm : t.phys = s.phys) {pa : Nat} {v : Byte}
    {m : Memory} (h : byteStored t pa v m) : byteStored s pa v m := by
  rwa [byteStored, hp, hm] at h

/-- A byte written to memory is stored where it may be, and reaches the port bound there (R62, D12). -/
theorem memStore_stores (pa : Nat) (v : Byte) (s : State) :
    ∃ m, byteStored s (wrapPhys s.params pa) v m
      ∧ memStore pa v s = (reachPort (memBindingAt s.params (wrapPhys s.params pa)) v s).setPhys m := by
  obtain ⟨m, hm, hread, -⟩ := physWrite_spec pa v s
  refine ⟨m, fun x => ?_, ?_⟩
  · simp only [hread, eq_comm (a := x)]
  · obtain ⟨b, hb, h⟩ | ⟨hb, h⟩ := memStore_cases pa v s <;> rw [h, hm, hb]
    · cases b <;> rfl
    · rfl

/-- The write of a memory side, at the address of its cursor (R65). -/
theorem dmaWrite_stores {n : SideName} (v : Byte) {s : State} (h : (sideOf s n).io = false) :
    ∃ m, byteStored s (cursorAddr s n) v m
      ∧ dmaWrite n v s = .next ((reachPort (memBindingAt s.params (cursorAddr s n)) v s).setPhys m) := by
  rw [dmaWrite_mem n v s h]
  obtain ⟨m, hm, hstore⟩ := memStore_stores (physAddrOf (sideOf s n) (cursorOf s n)) v s
  exact ⟨m, hm, congrArg _ hstore⟩

namespace AccessFrame

variable {s t : State}

/-- No access changes a latched side (R65). -/
theorem sideOf (f : AccessFrame s t) (n : SideName) : sideOf t n = sideOf s n := by
  cases n
  · exact congrArg Descriptor.src f.cur
  · exact congrArg Descriptor.tgt f.cur

/-- No access moves a cursor (R65). -/
theorem cursorOf (f : AccessFrame s t) (n : SideName) : cursorOf t n = cursorOf s n := by
  cases n
  · exact f.srcCur
  · exact f.tgtCur

theorem cursorAddr (f : AccessFrame s t) (n : SideName) : cursorAddr t n = cursorAddr s n := by
  rw [Machine.cursorAddr, Machine.cursorAddr, f.params, f.sideOf, f.cursorOf]

end AccessFrame

/-! ### One Execute step, as its byte operation and `afterByte` -/

theorem advance_eq (c : Addr20) (t : Step) : advance c t = c + stepAmount t := by
  cases t with
  | down => exact BitVec.sub_eq_add_neg c 1
  | hold => exact (BitVec.add_zero c).symm
  | up => rfl

/-- With a byte left, the tail is the update of `afterByte` (R188, R189). -/
theorem executeTail_eq_afterByte (c : CmdBits) {s : State} (h : 1 ≤ s.remaining) :
    executeTail c s = afterByte c.chain s.phys s := by
  obtain ⟨hleft, k⟩ | ⟨hlast, hchain, k⟩ | ⟨hlast, hchain, k⟩ := executeTail_cases c s <;>
    rw [k, advance_eq, advance_eq]
  · have hmore : s.remaining ≠ 1 := by omega
    simp [afterByte, hmore]
  · have hone : s.remaining = 1 := by omega
    simp [afterByte, hone, hchain]
  · have hone : s.remaining = 1 := by omega
    simp [afterByte, hone, hchain]

theorem exec_cmdInstr (op : Op) (c : CmdBits) (s : State) : exec (cmdInstr op c) s = whenRunning s (executeOp op c) := by
  cases op <;> rfl

/-- A command whose byte operation completes answers that state with the tail's update (R188). -/
theorem exec_cmdInstr_afterByte {op : Op} {c : CmdBits} {s u : State} (hrun : s.halted = none) (hleft : 1 ≤ s.remaining)
    (h : bodyOf op c s = .next u) : exec (cmdInstr op c) s = .next (afterByte c.chain u.phys u) := by
  have hleft' : 1 ≤ u.remaining := by rwa [(bodyOf_frame h).remaining]
  rw [exec_cmdInstr, whenRunning_running _ hrun, ← executeTail_eq_afterByte c hleft']
  exact (executeOp_next hrun).mpr ⟨u, h, rfl⟩

/-! ### I/O sides -/

/-- A command whose byte operation is one write of `v` to an I/O target away from DMA register 0 (R65, R191). -/
theorem exec_cmdInstr_ioTarget {op : Op} {c : CmdBits} {s : State} {a : CpuAddr} {v : Byte} (hrun : s.halted = none)
    (hio : s.cur.tgt.io = true) (hleft : 1 ≤ s.remaining) (ha : a.toNat = 0xD000 + s.tgtCur.toNat % 4096)
    (hreg : regIndex s.params a ≠ some 0) (hbody : bodyOf op c s = dmaWrite .tgt v s) :
    ∃ u, ioWrites s a v u ∧ exec (cmdInstr op c) s = .next (afterByte c.chain s.phys u) := by
  obtain ⟨u, hu, hnext⟩ := ioWriteEngine_writes v hreg
  have hwrite : dmaWrite .tgt v s = .next u := by
    rw [← hnext, ← ioAddrOf_eq ha]
    exact if_pos hio
  refine ⟨u, hu, ?_⟩
  rw [← ioWrites_phys hu]
  exact exec_cmdInstr_afterByte hrun hleft (hbody.trans hwrite)

/-- Settles O41: FILL's byte operation is a write of the constant, COPY's from memory a write of the byte read. -/
theorem writeToIoSide : Obligations.WriteToIoSide := by
  unfold Obligations.WriteToIoSide
  intro s c a hrun hio hleft ha hreg
  refine ⟨exec_cmdInstr_ioTarget (op := .fill) hrun hio hleft ha hreg rfl, fun hsrc => ?_⟩
  refine exec_cmdInstr_ioTarget (op := .copy) hrun hio hleft ha hreg ?_
  rw [cursorAddr, physRead_wrapPhys]
  simp only [bodyOf, doCopy, dmaRead_mem .src s hsrc]

/-- Settles O42: COPY's byte operation is one IoRead, then the store of its byte at the target's cursor, which the read
does not move. -/
theorem copyFromIoSide : Obligations.CopyFromIoSide := by
  unfold Obligations.CopyFromIoSide
  intro s c a hrun hsrc htgt hleft ha
  have hread : dmaRead .src s = ioRead a s := by
    rw [← ioAddrOf_eq ha]
    exact if_pos hsrc
  have hframe := ioRead_frame a s
  have hmem : (sideOf (ioRead a s).2 .tgt).io = false := by
    rw [hframe.sideOf]
    exact htgt
  obtain ⟨m, hm, hwrite⟩ := dmaWrite_stores (ioRead a s).1 hmem
  rw [hframe.cursorAddr] at hm hwrite
  rw [hframe.params] at hwrite
  have hbody : bodyOf .copy c s = dmaWrite .tgt (ioRead a s).1 (ioRead a s).2 := by
    simp only [bodyOf, doCopy, hread]
  exact ⟨_, _, m, ioRead_reads a s, byteStored_congr hframe.params (ioRead_phys a s) hm,
    exec_cmdInstr_afterByte (op := .copy) hrun hleft (hbody.trans hwrite)⟩

end Sys2Proof.Machine
end

section
/-! PROOFS. The engine beside the address translator: on a platform that binds no address, an engine call commutes with a
replacement of BankConfig and the table (R65, conflict C1). -/

namespace Sys2Proof.Machine

/-- At the ceiling a call of a busy engine raises F2 (R186, R242). -/
theorem engineStep_ceiling {s : State} (hbusy : s.busy = true) (h : s.params.dmaMaxIterations ≤ s.iterCount) :
    engineStep s = .next (s.setHalted (some (.runawayDma s.lp))) := by
  simp [engineStep, hbusy, h]

/-- BankConfig and the table replaced. -/
def withBanking (c : BankConfig) (tt : Vector Entry 16) (s : State) : State := { s with cfg := c, tt := tt }

section
variable (c : BankConfig) (tt : Vector Entry 16) (s : State)

/-! ### What reads no banking -/

@[simp] theorem withBanking_params : (withBanking c tt s).params = s.params := rfl
@[simp] theorem withBanking_halted : (withBanking c tt s).halted = s.halted := rfl
@[simp] theorem withBanking_sideOf (n : SideName) : sideOf (withBanking c tt s) n = sideOf s n := by cases n <;> rfl
@[simp] theorem withBanking_cursorOf (n : SideName) : cursorOf (withBanking c tt s) n = cursorOf s n := by cases n <;> rfl
@[simp] theorem withBanking_phys : (withBanking c tt s).phys = s.phys := rfl
@[simp] theorem withBanking_draws : (withBanking c tt s).draws = s.draws := rfl
@[simp] theorem withBanking_physRead (pa : Nat) : physRead (withBanking c tt s) pa = physRead s pa := rfl
@[simp] theorem withBanking_dmaRegRead (i : BitVec 2) : dmaRegRead i (withBanking c tt s) = dmaRegRead i s := rfl

/-! ### Updates that leave banking alone -/

@[simp] theorem withBanking_setPhys (m : Memory) : (withBanking c tt s).setPhys m = withBanking c tt (s.setPhys m) := rfl
@[simp] theorem withBanking_setDreg1 (v : Byte) : (withBanking c tt s).setDreg1 v = withBanking c tt (s.setDreg1 v) := rfl
@[simp] theorem withBanking_setDreg2 (v : Byte) : (withBanking c tt s).setDreg2 v = withBanking c tt (s.setDreg2 v) := rfl
@[simp] theorem withBanking_pushLog (e : Event) : (withBanking c tt s).pushLog e = withBanking c tt (s.pushLog e) := rfl
@[simp] theorem withBanking_pushIo (x : IoAccess) : (withBanking c tt s).pushIo x = withBanking c tt (s.pushIo x) := rfl
@[simp] theorem withBanking_bumpDraws : (withBanking c tt s).bumpDraws = withBanking c tt s.bumpDraws := rfl

/-! ### Accesses -/

theorem physWrite_withBanking (pa : Nat) (v : Byte) :
    physWrite pa v (withBanking c tt s) = withBanking c tt (physWrite pa v s) := by
  cases h : writableAt s.params (wrapPhys s.params pa) with
  | true => simp [physWrite, h]
  | false => rw [physWrite_discarded pa v s h, physWrite_discarded pa v (withBanking c tt s) h]

theorem ioRead_withBanking (a : CpuAddr) :
    ioRead a (withBanking c tt s) = ((ioRead a s).1, withBanking c tt (ioRead a s).2) := by
  cases h : regIndex s.params a with
  | some i => simp [ioRead, h]
  | none =>
    cases k : unimplementedAt s.params a with
    | true => simp [ioRead, h, k]
    | false => simp [ioRead, h, k]

theorem dmaRead_withBanking (n : SideName) :
    dmaRead n (withBanking c tt s) = ((dmaRead n s).1, withBanking c tt (dmaRead n s).2) := by
  cases h : (sideOf s n).io with
  | true => simp [dmaRead, h, ioRead_withBanking]
  | false => simp [dmaRead, h]

/-- A port bound nowhere is reached by no access (R5; assumption 10). -/
theorem bindingAt_eq_none {p : Params} (hp : ¬ bindsPort p) (a : CpuAddr) : bindingAt p a = none :=
  Option.eq_none_iff_forall_not_mem.mpr fun _ hb => hp (bindsPort_of_bindingAt hb)

theorem memBindingAt_eq_none {p : Params} (hp : ¬ bindsPort p) (a : Nat) : memBindingAt p a = none :=
  Option.eq_none_iff_forall_not_mem.mpr fun _ hb => hp (bindsPort_of_memBindingAt hb)

variable {s}

theorem memStore_withBanking (hp : ¬ bindsPort s.params) (pa : Nat) (v : Byte) :
    memStore pa v (withBanking c tt s) = withBanking c tt (memStore pa v s) := by
  have hnone := memBindingAt_eq_none hp (wrapPhys s.params pa)
  rw [memStore_unbound pa v s hnone, memStore_unbound pa v (withBanking c tt s) hnone, physWrite_withBanking]

theorem ioWriteOther_withBanking (hp : ¬ bindsPort s.params) (a : CpuAddr) (v : Byte) :
    ioWriteOther a v (withBanking c tt s) = withBanking c tt (ioWriteOther a v s) := by
  have hnone := bindingAt_eq_none hp a
  cases h : unimplementedAt s.params a with
  | true => simp [ioWriteOther, hnone, h]
  | false => simp [ioWriteOther, hnone, h]

theorem ioWriteEngine_withBanking (hp : ¬ bindsPort s.params) (a : CpuAddr) (v : Byte) :
    ioWriteEngine a v (withBanking c tt s) = mapNext (withBanking c tt) (ioWriteEngine a v s) := by
  cases h : regIndex s.params a with
  | none =>
    have hother := ioWriteOther_withBanking c tt (s := s.pushIo (.write a v)) hp a v
    simp [ioWriteEngine, h, hother, mapNext]
  | some i =>
    obtain rfl | rfl | rfl | rfl := regIndex_values i <;> simp [ioWriteEngine, h, mapNext, dmaRegStore]

theorem dmaWrite_withBanking (hp : ¬ bindsPort s.params) (n : SideName) (v : Byte) :
    dmaWrite n v (withBanking c tt s) = mapNext (withBanking c tt) (dmaWrite n v s) := by
  cases h : (sideOf s n).io with
  | true => simp [dmaWrite, h, ioWriteEngine_withBanking c tt hp]
  | false => simp [dmaWrite, h, memStore_withBanking c tt hp, mapNext]

/-! ### One engine call -/

/-- A sequence commutes with the replacement when its second part does in the state it runs in. -/
theorem andThen_withBanking {o : Out} {k : State → Out}
    (hk : ∀ t, o = .next t → k (withBanking c tt t) = mapNext (withBanking c tt) (k t)) :
    andThen (mapNext (withBanking c tt) o) k = mapNext (withBanking c tt) (andThen o k) := by
  cases o with
  | next t =>
    cases hrun : t.halted with
    | none => simp [mapNext, hrun, hk t rfl]
    | some f => simp [mapNext, andThen, hrun]
  | fault f => rfl
  | refused r => rfl

/-- The byte operation of every command commutes with the replacement (R210 to R214). -/
theorem bodyOf_withBanking (hp : ¬ bindsPort s.params) (op : Op) (cb : CmdBits) :
    bodyOf op cb (withBanking c tt s) = mapNext (withBanking c tt) (bodyOf op cb s) := by
  have hsrc : ¬ bindsPort (dmaRead .src s).2.params := by rwa [(dmaRead_frame .src s).params]
  have htgt : ¬ bindsPort (dmaRead .tgt (dmaRead .src s).2).2.params := by rwa [(dmaRead_frame .tgt _).params]
  cases op with
  | copy => simp only [bodyOf, doCopy, dmaRead_withBanking, dmaWrite_withBanking c tt hsrc]
  | mix => simp only [bodyOf, doMix, dmaRead_withBanking, dmaWrite_withBanking c tt htgt]
  | swap =>
    simp only [bodyOf, doSwap, dmaRead_withBanking, dmaWrite_withBanking c tt htgt]
    refine andThen_withBanking c tt fun t ht => dmaWrite_withBanking c tt ?_ _ _
    rwa [(dmaWrite_frame ht).params]
  | fill => exact dmaWrite_withBanking c tt hp _ _
  | unknown v => rfl

theorem executeTail_withBanking (cb : CmdBits) (s : State) :
    executeTail cb (withBanking c tt s) = withBanking c tt (executeTail cb s) := by
  by_cases h : s.remaining - 1 = 0
  · cases hc : cb.chain with
    | true => simp [executeTail, complete, withBanking, State.setCursors, State.setRemaining, State.setFlags, h, hc]
    | false => simp [executeTail, complete, withBanking, State.setCursors, State.setRemaining, State.setFlags, h, hc]
  · simp [executeTail, withBanking, State.setCursors, State.setRemaining, h]

theorem executeOp_withBanking (hp : ¬ bindsPort s.params) (op : Op) (cb : CmdBits) :
    executeOp op cb (withBanking c tt s) = mapNext (withBanking c tt) (executeOp op cb s) := by
  rw [executeOp_eq, executeOp_eq, executeWith, executeWith, bodyOf_withBanking c tt hp]
  exact andThen_withBanking c tt fun t _ => congrArg _ (executeTail_withBanking c tt cb t)

/-- The fetch reads PhysicalStore by physical address (R187). -/
theorem fetchDescriptor_withBanking (s : State) :
    fetchDescriptor (withBanking c tt s) = withBanking c tt (fetchDescriptor s) := rfl

theorem engineStep_withBanking (hp : ¬ bindsPort s.params) :
    engineStep (withBanking c tt s) = mapNext (withBanking c tt) (engineStep s) := by
  cases hbusy : s.busy with
  | false => rw [engineStep_idle hbusy, engineStep_idle (s := withBanking c tt s) hbusy, mapNext]
  | true =>
    by_cases hlt : s.iterCount < s.params.dmaMaxIterations
    · cases hphase : s.phase with
      | fetch =>
        rw [engineStep_fetch hbusy hlt hphase, engineStep_fetch (s := withBanking c tt s) hbusy hlt hphase]
        exact congrArg _ (fetchDescriptor_withBanking c tt (s.setIter (s.iterCount + 1)))
      | execute =>
        rw [engineStep_execute hbusy hlt hphase, engineStep_execute (s := withBanking c tt s) hbusy hlt hphase]
        exact executeOp_withBanking c tt (s := s.setIter (s.iterCount + 1)) hp _ _
    · have hceiling := Nat.not_lt.mp hlt
      rw [engineStep_ceiling hbusy hceiling, engineStep_ceiling (s := withBanking c tt s) hbusy hceiling]
      rfl

end

/-- Settles O52: every access, byte operation, tail and fetch of the engine commutes with the replacement. -/
theorem engineIgnoresBanking : Obligations.EngineIgnoresBanking := by
  unfold Obligations.EngineIgnoresBanking
  intro s c tt hio hmem
  have hp : ¬ bindsPort s.params := by simp [bindsPort, hio, hmem]
  change exec .dmaStep (withBanking c tt s) = mapNext (withBanking c tt) (exec .dmaStep s)
  rw [exec_dmaStep, exec_dmaStep]
  cases hrun : s.halted with
  | none =>
    rw [whenRunning_running _ hrun, whenRunning_running (s := withBanking c tt s) _ hrun, engineStep_withBanking c tt hp]
  | some f => rw [whenRunning_halted _ hrun, whenRunning_halted (s := withBanking c tt s) _ hrun, mapNext]

end Sys2Proof.Machine
end

section
/-! PROOFS. The encoding: decode and encode agree in both directions (R101, R103 to R105, R110), the two formats the
fetch latches (R187), and the refused start of EXTENDED (R106). -/

namespace Sys2Proof

open Machine

/-! ### The fields of a word -/

/-- A bit, as a field of width 1. -/
theorem ofBool_getLsbD {w : Nat} (x : BitVec w) (k : Nat) : BitVec.ofBool (x.getLsbD k) = x.extractLsb' k 1 := by
  ext i hi
  obtain rfl : i = 0 := by omega
  simp

/-- A command byte is its operation code and its CMD bits (R103). -/
theorem opcOf_cmdByteOf (opc : BitVec 2) (c : CmdBits) : opcOf (cmdByteOf opc c) = opc :=
  BitVec.extractLsb'_append_eq_right

theorem cmdBitsOf_cmdByteOf (opc : BitVec 2) (c : CmdBits) : cmdBitsOf (cmdByteOf opc c) = c := by
  simp only [cmdBitsOf, cmdByteOf, BitVec.getLsbD_append]
  simp

/-- No bit of a command byte is dropped (R103): its fields are adjacent and cover it. -/
theorem cmdByteOf_opcOf_cmdBitsOf (b : Byte) : cmdByteOf (opcOf b) (cmdBitsOf b) = b := by
  simp only [cmdByteOf, opcOf, cmdBitsOf, ofBool_getLsbD, BitVec.extractLsb'_append_extractLsb'_eq_extractLsb',
    BitVec.extractLsb'_eq_self]

/-- An ADDR3 word is its fields (R105). -/
theorem addr3OfWord_addr3Word (a : Addr3) : addr3OfWord (addr3Word a) = a := by
  simp only [addr3OfWord, addr3Word, BitVec.getLsbD_append, BitVec.extractLsb'_append_eq_right]
  simp

/-- No bit of an ADDR3 word is dropped (R105): its fields are adjacent and cover it. -/
theorem addr3Word_addr3OfWord (w : BitVec 24) : addr3Word (addr3OfWord w) = w := by
  simp only [addr3OfWord, addr3Word, ofBool_getLsbD, BitVec.extractLsb'_append_extractLsb'_eq_extractLsb',
    BitVec.extractLsb'_eq_self]

/-! ### The bytes of a field, least significant first (R67) -/

theorem wordBytes_append (b0 b1 : Byte) : wordBytes (b1 ++ b0) = [b0, b1] := by
  simp only [wordBytes, BitVec.extractLsb'_append_eq_right, BitVec.extractLsb'_append_eq_left (a := b1) (b := b0)]

theorem addr3Bytes_addr3OfBytes (b0 b1 b2 : Byte) : addr3Bytes (addr3OfBytes b0 b1 b2) = [b0, b1, b2] := by
  simp only [addr3Bytes, addr3OfBytes, addr3Word_addr3OfWord, BitVec.extractLsb'_append_eq_of_le (xlo := b0),
    Nat.le_refl, Nat.reduceLeDiff, Nat.reduceSub, BitVec.extractLsb'_append_eq_right,
    BitVec.extractLsb'_append_eq_left]

/-- The three bytes of an ADDR3 field read back as that field (R67, R105). -/
theorem addr3OfBytes_addr3Bytes (a : Addr3) :
    addr3OfBytes ((addr3Word a).extractLsb' 0 8) ((addr3Word a).extractLsb' 8 8) ((addr3Word a).extractLsb' 16 8)
      = a := by
  simp only [addr3OfBytes, BitVec.extractLsb'_append_extractLsb'_eq_extractLsb', BitVec.extractLsb'_eq_self,
    addr3OfWord_addr3Word]

theorem desc11Bytes_desc11OfBytes (b0 b1 b2 b3 b4 b5 b6 b7 b8 b9 b10 : Byte) :
    desc11Bytes (desc11OfBytes b0 b1 b2 b3 b4 b5 b6 b7 b8 b9 b10) = [b0, b1, b2, b3, b4, b5, b6, b7, b8, b9, b10] := by
  simp only [desc11Bytes, desc11OfBytes, wordBytes_append, addr3Bytes_addr3OfBytes, List.cons_append, List.nil_append]

/-! ### The operation of a command byte -/

/-- The operation code of a command (R104). -/
def opCode (op : Op) : BitVec 2 :=
  match op with
  | .copy => 0
  | .mix => 1
  | .swap => 2
  | .fill => 3
  | .unknown v => v

/-- The instruction of a command byte is the CMD instruction of its operation (R103, R104). -/
theorem decodeCmd_eq (ops : OpSet) (b : Byte) : decodeCmd ops b = cmdInstr (decodeOp ops b) (cmdBitsOf b) := by
  unfold decodeCmd
  cases decodeOp ops b <;> rfl

/-- Everything `decode_op` can answer (R104): one of the four operations when it is implemented, else Unknown. -/
theorem decodeOp_cases (ops : OpSet) (b : Byte) :
    (opcOf b = 0 ∧ ops.copy = true ∧ decodeOp ops b = .copy) ∨ (opcOf b = 1 ∧ ops.mix = true ∧ decodeOp ops b = .mix)
    ∨ (opcOf b = 2 ∧ ops.swap = true ∧ decodeOp ops b = .swap) ∨ (opcOf b = 3 ∧ ops.fill = true ∧ decodeOp ops b = .fill)
    ∨ (ops.has (opcOf b) = false ∧ decodeOp ops b = .unknown (opcOf b)) := by
  unfold decodeOp
  cases h : ops.has (opcOf b) with
  | false => simp
  | true => obtain k | k | k | k := regIndex_values (opcOf b) <;> simpa [OpSet.has, k] using h

/-- The decoded operation keeps the code of the byte (R104). -/
theorem opCode_decodeOp (ops : OpSet) (b : Byte) : opCode (decodeOp ops b) = opcOf b := by
  obtain ⟨k, -, h⟩ | ⟨k, -, h⟩ | ⟨k, -, h⟩ | ⟨k, -, h⟩ | ⟨-, h⟩ := decodeOp_cases ops b <;> rw [h]
  case inr.inr.inr.inr => rfl
  all_goals exact k.symm

/-- The decoded operation is one the configuration admits (R104, R118). -/
theorem wellFormed_decodeOp (p : Params) (b : Byte) (c : CmdBits) :
    WellFormed p (cmdInstr (decodeOp p.implementedOps b) c) = true := by
  obtain ⟨-, hop, h⟩ | ⟨-, hop, h⟩ | ⟨-, hop, h⟩ | ⟨-, hop, h⟩ | ⟨hop, h⟩ := decodeOp_cases p.implementedOps b <;>
    rw [h]
  case inr.inr.inr.inr => rw [cmdInstr, WellFormed, hop, Bool.not_false]
  all_goals exact hop

/-- A byte with the code of an operation the configuration admits decodes to it (R104). -/
theorem decodeOp_of_opCode {p : Params} {op : Op} {b : Byte} {c : CmdBits} (hb : opcOf b = opCode op)
    (hwf : WellFormed p (cmdInstr op c) = true) : decodeOp p.implementedOps b = op := by
  unfold decodeOp
  rw [hb]
  cases op with
  | copy => exact if_pos hwf
  | mix => exact if_pos hwf
  | swap => exact if_pos hwf
  | fill => exact if_pos hwf
  | unknown v => exact if_neg (by simpa [cmdInstr, WellFormed, opCode] using hwf)

theorem formatOf_cmdInstr (op : Op) (c : CmdBits) : formatOf (cmdInstr op c) = .cmd := by cases op <;> rfl

theorem encode_cmdInstr (op : Op) (c : CmdBits) : encode (cmdInstr op c) = some [cmdByteOf (opCode op) c] := by
  cases op <;> rfl

/-! ### The index byte of a register operation -/

/-- The byte form of a register index (R110; assumption 16). -/
def indexByte (r : BitVec 2) : Byte := r.setWidth 8

theorem indexByte_lt (r : BitVec 2) : (indexByte r).toNat < 4 := by
  have := r.isLt
  simp only [indexByte, BitVec.toNat_setWidth]
  omega

theorem extractLsb'_indexByte (r : BitVec 2) : (indexByte r).extractLsb' 0 2 = r := by
  apply BitVec.eq_of_toNat_eq
  simp [indexByte]
  omega

/-- A byte below 4 is the index byte of its two low bits. -/
theorem indexByte_extractLsb' {i : Byte} (h : i.toNat < 4) : indexByte (i.extractLsb' 0 2) = i := by
  apply BitVec.eq_of_toNat_eq
  simp [indexByte]
  omega

theorem formatOf_regWriteInstr (r : BitVec 2) (v : Byte) : formatOf (regWriteInstr r v) = .regWrite := by
  obtain rfl | rfl | rfl | rfl := regIndex_values r <;> rfl

theorem wellFormed_regWriteInstr (p : Params) (r : BitVec 2) (v : Byte) : WellFormed p (regWriteInstr r v) = true := by
  obtain rfl | rfl | rfl | rfl := regIndex_values r <;> rfl

theorem encode_regWriteInstr (r : BitVec 2) (v : Byte) : encode (regWriteInstr r v) = some [indexByte r, v] := by
  obtain rfl | rfl | rfl | rfl := regIndex_values r <;> rfl

theorem formatOf_regReadInstr (r : BitVec 2) : formatOf (regReadInstr r) = .regRead := by
  obtain rfl | rfl | rfl | rfl := regIndex_values r <;> rfl

theorem wellFormed_regReadInstr (p : Params) (r : BitVec 2) : WellFormed p (regReadInstr r) = true := by
  obtain rfl | rfl | rfl | rfl := regIndex_values r <;> rfl

theorem encode_regReadInstr (r : BitVec 2) : encode (regReadInstr r) = some [indexByte r] := by
  obtain rfl | rfl | rfl | rfl := regIndex_values r <;> rfl

/-! ### What the encoder can answer -/

/-- The five forms an encoded instruction has (R100): a command, a descriptor, an address field, a register write, a
register read. -/
theorem encode_cases {i : Instr} {bytes : List Byte} (h : encode i = some bytes) :
    (∃ op c, i = cmdInstr op c ∧ bytes = [cmdByteOf (opCode op) c])
    ∨ (∃ d, i = .desc11 d ∧ bytes = desc11Bytes d)
    ∨ (∃ side a, i = .addr3 side a ∧ bytes = addr3Bytes a)
    ∨ (∃ r v, i = regWriteInstr r v ∧ bytes = [indexByte r, v])
    ∨ (∃ r, i = regReadInstr r ∧ bytes = [indexByte r]) := by
  cases i with
  | copy c => cases h; exact .inl ⟨.copy, c, rfl, rfl⟩
  | mix c => cases h; exact .inl ⟨.mix, c, rfl, rfl⟩
  | swap c => cases h; exact .inl ⟨.swap, c, rfl, rfl⟩
  | fill c => cases h; exact .inl ⟨.fill, c, rfl, rfl⟩
  | unknown v c => cases h; exact .inl ⟨.unknown v, c, rfl, rfl⟩
  | desc11 d => cases h; exact .inr (.inl ⟨d, rfl, rfl⟩)
  | addr3 side a => cases h; exact .inr (.inr (.inl ⟨side, a, rfl, rfl⟩))
  | dmaRegWriteListLo v => cases h; exact .inr (.inr (.inr (.inl ⟨0, v, rfl, rfl⟩)))
  | dmaRegWriteListHi v => cases h; exact .inr (.inr (.inr (.inl ⟨1, v, rfl, rfl⟩)))
  | dmaRegWriteListBank v => cases h; exact .inr (.inr (.inr (.inl ⟨2, v, rfl, rfl⟩)))
  | dmaRegWriteStatus v => cases h; exact .inr (.inr (.inr (.inl ⟨3, v, rfl, rfl⟩)))
  | dmaRegReadListLo => cases h; exact .inr (.inr (.inr (.inr ⟨0, rfl, rfl⟩)))
  | dmaRegReadListHi => cases h; exact .inr (.inr (.inr (.inr ⟨1, rfl, rfl⟩)))
  | dmaRegReadListBank => cases h; exact .inr (.inr (.inr (.inr ⟨2, rfl, rfl⟩)))
  | dmaRegReadStatus => cases h; exact .inr (.inr (.inr (.inr ⟨3, rfl, rfl⟩)))
  | setMap | writePortDdr | writePortData | writeOverlay | cpuRead | cpuWrite | cpuFetch | dmaStep | reset => cases h

/-! ### Decode of encode, by format -/

section
variable (rest : List Byte)

theorem decode_cmdByteOf {p : Params} {op : Op} {c : CmdBits} (hwf : WellFormed p (cmdInstr op c) = true) :
    decode p.implementedOps .cmd (cmdByteOf (opCode op) c :: rest) = .ok (cmdInstr op c) rest := by
  rw [decode, decodeCmd_eq, decodeOp_of_opCode (opcOf_cmdByteOf _ _) hwf, cmdBitsOf_cmdByteOf]

theorem decode_addr3Bytes (ops : OpSet) (side : SideName) (a : Addr3) :
    decode ops (.addr3 side) (addr3Bytes a ++ rest) = .ok (.addr3 side a) rest := by
  simp only [decode, addr3Bytes, List.cons_append, List.nil_append, addr3OfBytes_addr3Bytes]

theorem decode_desc11Bytes (ops : OpSet) (d : Desc11) :
    decode ops .desc11 (desc11Bytes d ++ rest) = .ok (.desc11 d) rest := by
  simp only [decode, desc11Bytes, wordBytes, addr3Bytes, List.cons_append, List.nil_append, desc11OfBytes,
    addr3OfBytes_addr3Bytes, BitVec.extractLsb'_append_extractLsb'_eq_extractLsb', BitVec.extractLsb'_eq_self]

theorem decode_regWrite_indexByte (ops : OpSet) (r : BitVec 2) (v : Byte) :
    decode ops .regWrite (indexByte r :: v :: rest) = .ok (regWriteInstr r v) rest := by
  simp only [decode, indexByte_lt, if_true, extractLsb'_indexByte]

theorem decode_regRead_indexByte (ops : OpSet) (r : BitVec 2) :
    decode ops .regRead (indexByte r :: rest) = .ok (regReadInstr r) rest := by
  simp only [decode, indexByte_lt, if_true, extractLsb'_indexByte]

end

/-- Settles O58: the encoding of each of the five forms decodes to its instruction. -/
theorem decodeOfEncode : Obligations.DecodeOfEncode := by
  unfold Obligations.DecodeOfEncode
  intro p i bytes rest hwf henc
  obtain ⟨op, c, rfl, rfl⟩ | ⟨d, rfl, rfl⟩ | ⟨side, a, rfl, rfl⟩ | ⟨r, v, rfl, rfl⟩ | ⟨r, rfl, rfl⟩ := encode_cases henc
  · rw [formatOf_cmdInstr]; exact decode_cmdByteOf rest hwf
  · exact decode_desc11Bytes rest _ d
  · exact decode_addr3Bytes rest _ side a
  · rw [formatOf_regWriteInstr]; exact decode_regWrite_indexByte rest _ r v
  · rw [formatOf_regReadInstr]; exact decode_regRead_indexByte rest _ r

/-! ### Encode of decode -/

/-- The command byte of the instruction it stands for (R103, R104). -/
theorem encode_decodeCmd (ops : OpSet) (b : Byte) : encode (decodeCmd ops b) = some [b] := by
  rw [decodeCmd_eq, encode_cmdInstr, opCode_decodeOp, cmdByteOf_opcOf_cmdBitsOf]

/-- What each format's decoder answers is well-formed, of that format, and encodes to the bytes consumed. -/
theorem decode_ok {p : Params} {f : Format} {bytes rest : List Byte} {i : Instr}
    (h : decode p.implementedOps f bytes = .ok i rest) :
    WellFormed p i = true ∧ formatOf i = f ∧ ∃ used, encode i = some used ∧ bytes = used ++ rest := by
  cases f with
  | cmd =>
    simp only [decode] at h
    split at h <;> cases h
    rename_i b
    exact ⟨by rw [decodeCmd_eq]; exact wellFormed_decodeOp p b _, by rw [decodeCmd_eq, formatOf_cmdInstr],
      [b], encode_decodeCmd _ b, rfl⟩
  | desc11 =>
    simp only [decode] at h
    split at h <;> cases h
    exact ⟨rfl, rfl, _, congrArg some (desc11Bytes_desc11OfBytes ..), rfl⟩
  | addr3 side =>
    simp only [decode] at h
    split at h <;> cases h
    exact ⟨rfl, rfl, _, congrArg some (addr3Bytes_addr3OfBytes ..), rfl⟩
  | regWrite =>
    simp only [decode] at h
    split at h
    · split at h <;> cases h
      rename_i hlt
      exact ⟨wellFormed_regWriteInstr .., formatOf_regWriteInstr .., _, encode_regWriteInstr .., by
        rw [indexByte_extractLsb' hlt]; rfl⟩
    · cases h
  | regRead =>
    simp only [decode] at h
    split at h
    · split at h <;> cases h
      rename_i hlt
      exact ⟨wellFormed_regReadInstr .., formatOf_regReadInstr .., _, encode_regReadInstr .., by
        rw [indexByte_extractLsb' hlt]; rfl⟩
    · cases h
  | port => cases h

/-- Every eleven bytes are a descriptor (R101). -/
theorem decode_desc11_total (ops : OpSet) : ∀ bytes : List Byte, 11 ≤ bytes.length →
    ∃ i, decode ops .desc11 bytes = .ok i (bytes.drop 11)
  | _ :: _ :: _ :: _ :: _ :: _ :: _ :: _ :: _ :: _ :: _ :: _, _ => ⟨_, rfl⟩

/-- Settles O59: the encoder inverts each format's decoder (`decode_ok`), and a command byte and eleven bytes always
decode. -/
theorem encodeOfDecode : Obligations.EncodeOfDecode := by
  unfold Obligations.EncodeOfDecode
  exact ⟨fun _ _ _ _ _ => decode_ok, fun _ _ _ => ⟨_, rfl⟩, decode_desc11_total⟩

/-- Settles O60, by running the decoder on the eight words. -/
theorem sampleWordsDecode : Obligations.SampleWordsDecode := by
  unfold Obligations.SampleWordsDecode
  decide

/-- A descriptor has 11 bytes in BASE and 12 in EXTENDED (R101, R102). -/
theorem Params.descLen_eq (p : Params) : p.descLen = if p.variant = .base then 11 else 12 := by
  unfold Params.descLen
  cases p.variant <;> rfl

end Sys2Proof

namespace Sys2Proof.Machine

/-! ### The two formats as instructions, and the refused start -/

/-- A write of register 0 is the trigger (R181). -/
theorem dmaRegWrite_zero (v : Byte) (s : State) :
    dmaRegWrite 0 v s = startDma (listAddress (s.setDreg0 v)) (s.setDreg0 v) := by
  simp [dmaRegWrite, dmaRegStore]

/-- `start` in EXTENDED is refused, whatever the engine does (R106). -/
theorem startDma_extended {s : State} {m : Nat} (h : s.params.variant = .extended m) (a : BitVec 24) :
    startDma a s = .refused .extendedDmaStart := by
  simp only [startDma, h]

/-- Settles O30: register 0 is the trigger, and the trigger keeps the variant. -/
theorem extendedStartRefused : Obligations.ExtendedStartRefused := by
  unfold Obligations.ExtendedStartRefused
  intro s v m hrun hvar
  have hstored : (s.setDreg0 v).params.variant = .extended m := by rw [State.setDreg0_params, hvar]
  rw [exec_dmaRegWriteListLo, whenRunning_running _ hrun, dmaRegWrite_zero, startDma_extended hstored]

/-- The sub-command byte is read in EXTENDED only (R102). -/
theorem subcmdAt_eq (s : State) :
    subcmdAt s = if s.params.variant = .base then s.cur.subcmd else physRead s (s.lp + 11) := by
  unfold subcmdAt
  cases s.params.variant <;> rfl

/-- HOLD wins over DIR, and without either the cursor moves up (R106). -/
theorem stepOf_spec (a : Addr3) :
    (a.hold = true → stepOf a = .hold) ∧ (a.hold = false → a.dir = true → stepOf a = .down)
      ∧ (a.hold = false → a.dir = false → stepOf a = .up) := by
  refine ⟨fun h => ?_, fun h hd => ?_, fun h hd => ?_⟩
  · simp [stepOf, h]
  · simp [stepOf, h, hd]
  · simp [stepOf, h, hd]

/-- Settles O33: the two formats run the fetch's latch, whose fields `latchDescriptor_eq` and `latchSide_src` list. -/
theorem formatsLatch : Obligations.FormatsLatch := by
  unfold Obligations.FormatsLatch
  refine ⟨fun s d hrun => ?_, fun s a hrun => ⟨?_, ?_⟩, stepOf_spec⟩
  · rw [exec_desc11, whenRunning_running _ hrun, latchDescriptor_eq, subcmdAt_eq, Params.descLen_eq]
    rfl
  · rw [exec_addr3, whenRunning_running _ hrun, latchSide_src]
    rfl
  · rw [exec_addr3, whenRunning_running _ hrun, latchSide_tgt]
    rfl

end Sys2Proof.Machine
end

section
/-! PROOFS. The entries of a rebuilt table: the CPU port (R140, R150), which case of R142 gives each region its entry, and
what an entry can be (R152, R160). -/

namespace Sys2Proof.Machine

/-! ### The CPU port -/

/-- Bit `i` of `cp` (R140). -/
theorem cpuPort_getLsbD (c : BankConfig) {i : Nat} (hi : i < 3) :
    (cpuPort c).getLsbD i = (!c.cpuPortDdr.getLsbD i || c.cpuPortData.getLsbD i) := by
  have hbyte : i < 8 := by omega
  simp [cpuPort, hi, hbyte, Bool.or_comm]

/-- `cp` is a number 0 to 7, the low three bits of `data | ~ddr` (R140). -/
theorem cpuPort_toNat (c : BankConfig) : (cpuPort c).toNat = ((c.cpuPortData ||| ~~~c.cpuPortDdr) &&& 7).toNat := by
  rw [BitVec.toNat_and]
  exact (Nat.and_two_pow_sub_one_eq_mod _ 3).symm

/-- Settles O1: the value and the bits of `cp`, then the rule's five examples by evaluation. -/
theorem cpuPortValue : Obligations.CpuPortValue := by
  unfold Obligations.CpuPortValue
  refine ⟨fun c => ⟨cpuPort_toNat c, Nat.le_of_lt_succ (cpuPort c).isLt, fun i => cpuPort_getLsbD c⟩, ?_⟩
  decide

/-- Settles O7: the row is that of the BASE table at `cp`, and `cp` has eight values. -/
theorem basePortRows : Obligations.BasePortRows := by
  unfold Obligations.BasePortRows
  intro c
  have hrow : portRow profileP0 c = basePortPolicy.get (cpuPort c).toFin := rfl
  rw [hrow]
  generalize cpuPort c = cp
  revert cp
  decide

/-! ### The case of R142 that applies -/

theorem entry_of_overlay {p : Params} {c : BankConfig} {n : Region} (h : overlayClaims p c n = true) :
    entry p c n = entryOverlay p n := by
  simp [entry, h]

theorem entry_of_map {p : Params} {c : BankConfig} {n : Region} (hov : overlayClaims p c n = false)
    (hmap : mapClaims c n = true) : entry p c n = entryMapped p c n := by
  simp [entry, hov, hmap]

theorem entry_of_unclaimed {p : Params} {c : BankConfig} {n : Region} (hov : overlayClaims p c n = false)
    (hmap : mapClaims c n = false) : entry p c n = entryUnclaimed p c n := by
  simp [entry, hov, hmap]

/-- Every region is direct or in one of the three CPU-port windows (R145 to R149). -/
theorem region_windows (n : Region) :
    (n.val ≤ 7 ∨ n = 8 ∨ n = 9 ∨ n = 12) ∨ (n = 10 ∨ n = 11) ∨ n = 13 ∨ (n = 14 ∨ n = 15) := by
  revert n
  decide

section
variable (p : Params) (c : BankConfig) {n : Region}

/-- Regions 0 to 9 and $C have no CPU-port window (R145, R146). -/
theorem entryUnclaimed_direct (h : n.val ≤ 7 ∨ n = 8 ∨ n = 9 ∨ n = 12) : entryUnclaimed p c n = directEntry := by
  obtain hlow | rfl | rfl | rfl := h
  · unfold entryUnclaimed
    split
    case h_6 => rfl
    all_goals omega
  all_goals rfl

theorem entryUnclaimed_portA (h : n = 10 ∨ n = 11) : entryUnclaimed p c n = entryPortA p c := by
  obtain rfl | rfl := h <;> rfl

theorem entryUnclaimed_portD (h : n = 13) : entryUnclaimed p c n = entryPortD p c := by
  subst h; rfl

theorem entryUnclaimed_portE (h : n = 14 ∨ n = 15) : entryUnclaimed p c n = entryPortE p c := by
  obtain rfl | rfl := h <;> rfl

end

/-- Settles O2: the three claims of R142 in their order, then the window of an unclaimed region. -/
theorem recomputePriority : Obligations.RecomputePriority := by
  unfold Obligations.RecomputePriority
  intro p c n
  rw [recompute_get]
  refine ⟨entry_of_overlay, entry_of_map, fun hov hmap => ?_⟩
  rw [entry_of_unclaimed hov hmap]
  exact ⟨entryUnclaimed_direct p c, entryUnclaimed_portA p c, entryUnclaimed_portD p c, entryUnclaimed_portE p c⟩

/-! ### Overlay windows -/

/-- No overlay window lies in regions 0 to 7 or in region $D (R141). -/
theorem overlayWindow_eq_none (p : Params) {n : Region} (h : n.val ≤ 7 ∨ n = 13) : overlayWindow p n = none := by
  obtain hlow | rfl := h
  · unfold overlayWindow
    split
    case h_8 => rfl
    all_goals omega
  · rfl

/-- A window's mask is one of the four (R114). -/
theorem overlayWindow_mask {p : Params} {n : Region} {w : OverlayWindow} (h : overlayWindow p n = some w) :
    w.mask = p.ov8Mask ∨ w.mask = p.ovAMask ∨ w.mask = p.ovCMask ∨ w.mask = p.ovEMask := by
  unfold overlayWindow at h
  split at h <;> cases h <;> simp

theorem overlayClaims_of_no_window {p : Params} (c : BankConfig) {n : Region} (h : overlayWindow p n = none) :
    overlayClaims p c n = false := by
  simp [overlayClaims, h]

/-- A window is claimed when the bit of its mask is set (R141). -/
theorem overlayClaims_iff {p : Params} (c : BankConfig) {n : Region} {w : OverlayWindow}
    (h : overlayWindow p n = some w) : overlayClaims p c n = true ↔ c.romOverlayBits &&& w.mask ≠ 0 := by
  simp [overlayClaims, h]

/-- No overlay claims regions 0 to 7 or region $D (R141, D10). -/
theorem overlayClaims_eq_false (p : Params) (c : BankConfig) {n : Region} (h : n.val ≤ 7 ∨ n = 13) :
    overlayClaims p c n = false :=
  overlayClaims_of_no_window c (overlayWindow_eq_none p h)

/-! ### What each kind of entry is -/

/-- An overlay entry is no I/O entry and stays in slice 0; its sides differ only under RAM_UNDER (R143). -/
theorem entryOverlay_spec (p : Params) (n : Region) :
    (entryOverlay p n).io = false ∧ (entryOverlay p n).rm = 0 ∧ (entryOverlay p n).wm = 0
    ∧ ((entryOverlay p n).ro ≠ (entryOverlay p n).wo → p.overlayWrite = .ramUnder) := by
  unfold entryOverlay
  cases overlayWindow p n with
  | none => exact ⟨rfl, rfl, rfl, fun h => absurd rfl h⟩
  | some w =>
    cases p.overlayWrite with
    | discard => exact ⟨rfl, rfl, rfl, fun h => absurd rfl h⟩
    | ramUnder => exact ⟨rfl, rfl, rfl, fun _ => rfl⟩

/-- A mapped entry is no I/O entry, and its two sides are the same (R144). -/
theorem entryMapped_spec (p : Params) (c : BankConfig) (n : Region) :
    (entryMapped p c n).io = false ∧ (entryMapped p c n).ro = (entryMapped p c n).wo
    ∧ (entryMapped p c n).rm = (entryMapped p c n).wm := by
  unfold entryMapped
  split <;> exact ⟨rfl, rfl, rfl⟩

/-- What an unclaimed region shows (R145 to R149): RAM at the address itself, a CPU-port ROM read at its offset in the
window over RAM for writes, or I/O in region $D. -/
theorem entryUnclaimed_cases (p : Params) (c : BankConfig) (n : Region) :
    entryUnclaimed p c n = directEntry
    ∨ ((((n = 10 ∨ n = 11) ∧ (portRow p c).a = .basic) ∨ (n = 13 ∧ (portRow p c).d = .chargen)
        ∨ ((n = 14 ∨ n = 15) ∧ (portRow p c).e = .kernal))
      ∧ ∃ ro, entryUnclaimed p c n = ⟨ro, 0, 0, 0, false⟩)
    ∨ (n = 13 ∧ (portRow p c).d = .io ∧ entryUnclaimed p c n = ⟨0, 0, 0, 0, true⟩) := by
  obtain hn | hn | hn | hn := region_windows n
  · exact .inl (entryUnclaimed_direct p c hn)
  · rw [entryUnclaimed_portA p c hn, entryPortA]
    cases ha : (portRow p c).a with
    | ram => exact .inl rfl
    | basic => exact .inr (.inl ⟨.inl ⟨hn, rfl⟩, _, rfl⟩)
  · rw [entryUnclaimed_portD p c hn, entryPortD]
    cases hd : (portRow p c).d with
    | ram => exact .inl rfl
    | chargen => exact .inr (.inl ⟨.inr (.inl ⟨hn, rfl⟩), _, rfl⟩)
    | io => exact .inr (.inr ⟨hn, rfl, rfl⟩)
  · rw [entryUnclaimed_portE p c hn, entryPortE]
    cases he : (portRow p c).e with
    | ram => exact .inl rfl
    | kernal => exact .inr (.inl ⟨.inr (.inr ⟨hn, rfl⟩), _, rfl⟩)

/-- Settles O9: overlay and mapped entries are never I/O, and an unclaimed one is where region $D shows I/O. -/
theorem onlyRegionDIsIo : Obligations.OnlyRegionDIsIo := by
  unfold Obligations.OnlyRegionDIsIo
  intro p c n
  rw [recompute_get]
  constructor
  · intro hio
    obtain ⟨-, h⟩ | ⟨-, -, h⟩ | ⟨-, hmap, h⟩ := entry_cases p c n <;> rw [h] at hio
    · simp [entryOverlay_spec] at hio
    · simp [entryMapped_spec] at hio
    · obtain h | ⟨-, ro, h⟩ | ⟨hn, hd, -⟩ := entryUnclaimed_cases p c n
      · simp [h, directEntry] at hio
      · simp [h] at hio
      · exact ⟨hn, hmap, hd⟩
  · rintro ⟨hn, hmap, hd⟩
    rw [entry_of_unclaimed (overlayClaims_eq_false p c (.inr hn)) hmap, entryUnclaimed_portD p c hn, entryPortD, hd]

/-- Settles O10: a mapped and a direct entry have equal sides, an overlay entry's differ under RAM_UNDER only, and an
unclaimed one's where a CPU-port ROM is shown. -/
theorem entrySidesDiffer : Obligations.EntrySidesDiffer := by
  unfold Obligations.EntrySidesDiffer
  intro p c n
  rw [recompute_get]
  intro hdiff
  obtain ⟨hov, h⟩ | ⟨-, -, h⟩ | ⟨hov, hmap, h⟩ := entry_cases p c n <;> rw [h] at hdiff
  · obtain ⟨-, hrm, hwm, hunder⟩ := entryOverlay_spec p n
    have hoff : (entryOverlay p n).ro ≠ (entryOverlay p n).wo := by simpa [hrm, hwm] using hdiff
    exact .inl ⟨hov, hunder hoff⟩
  · simp [entryMapped_spec] at hdiff
  · refine .inr ⟨hov, hmap, ?_⟩
    obtain h | ⟨hrom, -⟩ | ⟨-, -, h⟩ := entryUnclaimed_cases p c n
    · simp [h, directEntry] at hdiff
    · exact hrom
    · simp [h] at hdiff

end Sys2Proof.Machine
end

section
/-! PROOFS. What `translate` answers through a rebuilt table (R151, R152), case by case of R142: overlay (R143), mapped
(R144), direct (R145, R146) and CPU-port windows (R147 to R149). -/

namespace Sys2Proof.Machine

/-! ### The physical address an entry gives -/

/-- A CPU address keeps its value as a 20-bit number. -/
theorem setWidth_addr_toNat (addr : CpuAddr) : (addr.setWidth 20).toNat = addr.toNat := by
  have := addr.isLt
  rw [BitVec.toNat_setWidth]
  omega

/-- The sum of offset and address wraps inside the slice of the selector (R151, D3). -/
theorem Entry.physical_eq (e : Entry) (addr : CpuAddr) (i : Intent) :
    e.physical addr i = e.selector i * 2 ^ 20 + ((e.offset i).toNat + addr.toNat) % 2 ^ 20 := by
  rw [Entry.physical, BitVec.toNat_add, setWidth_addr_toNat]

/-- An offset `pa - base` places the address at its distance from `base` in the image at `pa` (R143, R147 to R149). -/
theorem Entry.physical_window {e : Entry} {i : Intent} {pa base : Addr20} (addr : CpuAddr) (hsel : e.selector i = 0)
    (hoff : e.offset i = pa - base) : e.physical addr i = (pa + (addr.setWidth 20 - base)).toNat := by
  have hsum : pa - base + addr.setWidth 20 = pa + (addr.setWidth 20 - base) := by
    rw [sub_add_eq_add_sub, add_sub_assoc]
  rw [Entry.physical, hsel, hoff, hsum, Nat.zero_mul, Nat.zero_add]

/-- An offset 0 gives the address itself (R142). -/
theorem Entry.physical_zero {e : Entry} {i : Intent} (addr : CpuAddr) (hsel : e.selector i = 0)
    (hoff : e.offset i = 0) : e.physical addr i = addr.toNat := by
  rw [Entry.physical, hsel, hoff, zero_add, setWidth_addr_toNat, Nat.zero_mul, Nat.zero_add]

/-- In BASE an entry of a rebuilt table selects slice 0 (R23, R142). -/
theorem entry_selector_base {p : Params} (h : p.variant = .base) (c : BankConfig) (n : Region) (i : Intent) :
    (entry p c n).selector i = 0 := by
  obtain ⟨-, k⟩ | ⟨-, -, k⟩ | ⟨-, -, k⟩ := entry_cases p c n <;> rw [k]
  · obtain ⟨-, hrm, hwm, -⟩ := entryOverlay_spec p n
    cases i
    · exact hrm
    · exact hwm
  · unfold entryMapped
    split <;> cases i <;> exact megabyte_base p _ h
  · obtain k | ⟨-, ro, k⟩ | ⟨-, -, k⟩ := entryUnclaimed_cases p c n <;> rw [k] <;> cases i <;> rfl

/-! ### `translate` -/

/-- Settles O8: the answers by the region's entry; the two examples are the read clause at regions 2 and 0; in BASE the
selector is 0. -/
theorem translateAnswers : Obligations.TranslateAnswers := by
  unfold Obligations.TranslateAnswers
  refine ⟨fun tt addr i => ⟨regionOf addr, regionOf_val addr, fun hio hn => translate_of_io tt addr i hio hn,
    fun hio hn => translate_of_inconsistent tt addr i hio hn, fun hio => ?_⟩, fun tt hio hrm hro => ?_,
    fun tt hio hrm hro => ?_, fun p c addr i pa hbase h => ?_⟩
  · rw [translate_of_not_io tt addr i hio, Entry.physical_eq]
    exact ⟨by rintro rfl; rfl, by rintro rfl; rfl⟩
  · have hregion : regionOf 0x2345 = 2 := rfl
    rw [translate_of_not_io tt 0x2345 .read hio, hregion, Entry.physical_eq]
    simp [Entry.selector, Entry.offset, hrm, hro]
  · have hregion : regionOf 0x0200 = 0 := rfl
    rw [translate_of_not_io tt 0x0200 .read hio, hregion, Entry.physical_eq]
    simp [Entry.selector, Entry.offset, hrm, hro]
  · obtain ⟨-, k⟩ | ⟨-, -, k⟩ | ⟨-, -, k⟩ := translate_cases (recompute p c) addr i <;> rw [k] at h <;> cases h
    rw [recompute_get, Entry.physical_eq, entry_selector_base hbase, Nat.zero_mul, Nat.zero_add]
    exact Nat.mod_lt _ (by decide)

section
variable {p : Params} {c : BankConfig} {addr : CpuAddr}

/-- `translate` through a rebuilt table, by the entry of the address's region. -/
theorem translate_recompute {e : Entry} (h : entry p c (regionOf addr) = e) (hio : e.io = false) (i : Intent) :
    translate (recompute p c) addr i = .physical (e.physical addr i) := by
  subst h
  rw [← recompute_get] at hio ⊢
  exact translate_of_not_io _ addr i hio

/-- A direct region answers the address itself (R142, R145). -/
theorem translate_direct (h : entry p c (regionOf addr) = directEntry) (i : Intent) :
    translate (recompute p c) addr i = .physical addr.toNat := by
  rw [translate_recompute h rfl]
  cases i <;> exact congrArg _ (Entry.physical_zero addr rfl rfl)

/-- A ROM image over RAM: reads go to the image, writes to the RAM under it (R143, R147 to R149). -/
theorem translate_romOverRam {pa base : Addr20} (h : entry p c (regionOf addr) = ⟨pa - base, 0, 0, 0, false⟩) :
    translate (recompute p c) addr .read = .physical (pa + (addr.setWidth 20 - base)).toNat
    ∧ translate (recompute p c) addr .write = .physical addr.toNat := by
  rw [translate_recompute h rfl, translate_recompute h rfl]
  exact ⟨congrArg _ (Entry.physical_window addr rfl rfl), congrArg _ (Entry.physical_zero addr rfl rfl)⟩

/-- An image for both intents (R143). -/
theorem translate_image {pa base : Addr20} (h : entry p c (regionOf addr) = ⟨pa - base, pa - base, 0, 0, false⟩)
    (i : Intent) : translate (recompute p c) addr i = .physical (pa + (addr.setWidth 20 - base)).toNat := by
  rw [translate_recompute h rfl]
  cases i <;> exact congrArg _ (Entry.physical_window addr rfl rfl)

end

/-! ### Regions by address -/

/-- The region of an address lies between its own bounds (R7). -/
theorem regionOf_eq_iff (addr : CpuAddr) (n : Region) :
    regionOf addr = n ↔ n.val * 4096 ≤ addr.toNat ∧ addr.toNat < (n.val + 1) * 4096 := by
  rw [Fin.ext_iff, regionOf_val]
  omega

/-- The low 32KB are regions 0 to 7 (R7). -/
theorem regionOf_low {addr : CpuAddr} : (regionOf addr).val ≤ 7 ↔ addr.toNat < 0x8000 := by
  rw [regionOf_val]
  omega

section
variable (addr : CpuAddr)

theorem regionOf_window8 : regionOf addr = 8 ∨ regionOf addr = 9 ↔ 0x8000 ≤ addr.toNat ∧ addr.toNat < 0xA000 := by
  rw [regionOf_eq_iff, regionOf_eq_iff]
  omega

theorem regionOf_windowA : regionOf addr = 10 ∨ regionOf addr = 11 ↔ 0xA000 ≤ addr.toNat ∧ addr.toNat < 0xC000 := by
  rw [regionOf_eq_iff, regionOf_eq_iff]
  omega

theorem regionOf_windowC : regionOf addr = 12 ↔ 0xC000 ≤ addr.toNat ∧ addr.toNat < 0xD000 := regionOf_eq_iff addr 12

theorem regionOf_windowD : regionOf addr = 13 ↔ 0xD000 ≤ addr.toNat ∧ addr.toNat < 0xE000 := regionOf_eq_iff addr 13

theorem regionOf_windowE : regionOf addr = 14 ∨ regionOf addr = 15 ↔ 0xE000 ≤ addr.toNat := by
  have := addr.isLt
  rw [regionOf_eq_iff, regionOf_eq_iff]
  omega

end

/-! ### Overlay windows -/

/-- The four windows by number, each with its mask and image (R141, R114). -/
theorem overlayWindow_regionOf {p : Params} {addr : CpuAddr} {W : Nat} {mask : Byte} {P : Addr20}
    (h : (0x8000 ≤ addr.toNat ∧ addr.toNat < 0xA000 ∧ W = 0x8000 ∧ mask = p.ov8Mask ∧ P = p.ov8Pa)
      ∨ (0xA000 ≤ addr.toNat ∧ addr.toNat < 0xC000 ∧ W = 0xA000 ∧ mask = p.ovAMask ∧ P = p.ovAPa)
      ∨ (0xC000 ≤ addr.toNat ∧ addr.toNat < 0xD000 ∧ W = 0xC000 ∧ mask = p.ovCMask ∧ P = p.ovCPa)
      ∨ (0xE000 ≤ addr.toNat ∧ W = 0xE000 ∧ mask = p.ovEMask ∧ P = p.ovEPa)) :
    ∃ base, overlayWindow p (regionOf addr) = some ⟨base, mask, P⟩ ∧ base.toNat = W ∧ W ≤ addr.toNat := by
  obtain ⟨hlo, hhi, rfl, rfl, rfl⟩ | ⟨hlo, hhi, rfl, rfl, rfl⟩ | ⟨hlo, hhi, rfl, rfl, rfl⟩ | ⟨hlo, rfl, rfl, rfl⟩ :=
    h
  · obtain hn | hn := (regionOf_window8 addr).mpr ⟨hlo, hhi⟩ <;> exact ⟨0x08000, by rw [hn]; rfl, rfl, hlo⟩
  · obtain hn | hn := (regionOf_windowA addr).mpr ⟨hlo, hhi⟩ <;> exact ⟨0x0A000, by rw [hn]; rfl, rfl, hlo⟩
  · exact ⟨0x0C000, by rw [(regionOf_windowC addr).mpr ⟨hlo, hhi⟩]; rfl, rfl, hlo⟩
  · obtain hn | hn := (regionOf_windowE addr).mpr hlo <;> exact ⟨0x0E000, by rw [hn]; rfl, rfl, hlo⟩

/-- The entry of a window under each write policy (R143). -/
theorem entryOverlay_of_window {p : Params} {n : Region} {w : OverlayWindow} (h : overlayWindow p n = some w) :
    (p.overlayWrite = .discard → entryOverlay p n = ⟨w.pa - w.base, w.pa - w.base, 0, 0, false⟩)
    ∧ (p.overlayWrite = .ramUnder → entryOverlay p n = ⟨w.pa - w.base, 0, 0, 0, false⟩) := by
  constructor <;> intro hpol <;> simp [entryOverlay, h, hpol]

/-- The distance of an address from the base of its window, as numbers. -/
theorem image_toNat {pa base : Addr20} {addr : CpuAddr} (h : base.toNat ≤ addr.toNat) :
    (pa + (addr.setWidth 20 - base)).toNat = (pa.toNat + (addr.toNat - base.toNat)) % 2 ^ 20 := by
  have hle : base ≤ addr.setWidth 20 := by
    rw [BitVec.le_def, setWidth_addr_toNat]
    exact h
  rw [BitVec.toNat_add, BitVec.toNat_sub_of_le hle, setWidth_addr_toNat]

/-- Settles O3: the window of the address gives the entry under each policy, and the entry gives the image's byte. -/
theorem overlayAccess : Obligations.OverlayAccess := by
  unfold Obligations.OverlayAccess
  refine ⟨fun p c addr W mask P hwindow => ?_, fun p c addr haddr => ?_⟩
  · obtain ⟨base, hw, rfl, hle⟩ := overlayWindow_regionOf hwindow
    have hiff := overlayClaims_iff c hw
    refine ⟨hiff, fun hbit => ?_⟩
    have hentry : entry p c (regionOf addr) = entryOverlay p (regionOf addr) := entry_of_overlay (hiff.mpr hbit)
    obtain ⟨hdiscard, hunder⟩ := entryOverlay_of_window hw
    rw [← image_toNat hle]
    cases hpol : p.overlayWrite with
    | discard =>
      have himage := translate_image (hentry.trans (hdiscard hpol))
      exact ⟨himage .read, fun _ => himage .write, nofun⟩
    | ramUnder =>
      obtain ⟨hread, hwrite⟩ := translate_romOverRam (hentry.trans (hunder hpol))
      exact ⟨hread, nofun, fun _ => hwrite⟩
  · refine overlayClaims_eq_false p c ?_
    rwa [regionOf_low, regionOf_windowD]

/-! ### Mapped regions -/

/-- The pair of each half of the address space (R144). -/
theorem entryMapped_low (p : Params) (c : BankConfig) {n : Region} (h : n.val ≤ 7) : entryMapped p c n =
    ⟨c.mapOffsetLow, c.mapOffsetLow, megabyte p c.mapMegabyteLow, megabyte p c.mapMegabyteLow, false⟩ :=
  if_pos h

theorem entryMapped_high (p : Params) (c : BankConfig) {n : Region} (h : ¬ n.val ≤ 7) : entryMapped p c n =
    ⟨c.mapOffsetHigh, c.mapOffsetHigh, megabyte p c.mapMegabyteHigh, megabyte p c.mapMegabyteHigh, false⟩ :=
  if_neg h

/-- A CPU write that translates to a byte that is not writable changes nothing (R62, D4). -/
theorem exec_cpuWrite_discarded {s : State} {addr : CpuAddr} {pa : Nat} (v : Byte) (hrun : s.halted = none)
    (h : translate s.tt addr .write = .physical pa) (hro : writableAt s.params (wrapPhys s.params pa) = false) :
    exec (.cpuWrite addr v) s = .next s := by
  rw [exec_cpuWrite, whenRunning_running _ hrun]
  simp only [memWrite, h, memStore_discarded pa v s hro]

/-- Settles O4: the half of the address decides the pair, and a mapped entry's two sides are the same. -/
theorem mappedAccess : Obligations.MappedAccess := by
  unfold Obligations.MappedAccess
  refine ⟨fun p c addr i hov hmap => ?_, fun c n m h => ⟨by rw [mapClaims, mapClaims, h], rfl⟩,
    fun s addr v pa hrun _ _ _ h hro => exec_cpuWrite_discarded v hrun h hro⟩
  have hentry : entry p c (regionOf addr) = entryMapped p c (regionOf addr) := entry_of_map hov hmap
  refine ⟨fun hlow => ?_, fun hhigh => ?_, ?_⟩
  · rw [translate_recompute (hentry.trans (entryMapped_low p c (regionOf_low.mpr hlow))) rfl, Entry.physical_eq]
    cases i <;> rfl
  · have hn : ¬ (regionOf addr).val ≤ 7 := by
      rw [regionOf_low]
      omega
    rw [translate_recompute (hentry.trans (entryMapped_high p c hn)) rfl, Entry.physical_eq]
    cases i <;> rfl
  · rw [recompute_get, hentry]
    exact (entryMapped_spec p c _).1

/-! ### Direct regions and CPU-port windows -/

/-- Regions 0 to 7 are mapped or direct (R142, R145). -/
theorem entry_low (p : Params) (c : BankConfig) {n : Region} (h : n.val ≤ 7) :
    entry p c n = if mapClaims c n then entryMapped p c n else directEntry := by
  have hov := overlayClaims_eq_false p c (.inl h)
  cases hmap : mapClaims c n with
  | true => exact entry_of_map hov hmap
  | false => exact (entry_of_unclaimed hov hmap).trans (entryUnclaimed_direct p c (.inl h))

/-- Settles O5: `entry_low` reads neither the CPU port nor the overlay bits. -/
theorem directAccess : Obligations.DirectAccess := by
  unfold Obligations.DirectAccess
  refine ⟨fun p c addr i hmap haddr => ?_, fun p c n ddr data ov hn => ⟨overlayClaims_eq_false p c (.inl hn), ?_⟩⟩
  · have hdirect : entry p c (regionOf addr) = directEntry := by
      simp [entry_low p c (regionOf_low.mpr haddr), hmap]
    exact ⟨(recompute_get p c _).trans hdirect, translate_direct hdirect i⟩
  · rw [recompute_get, recompute_get, entry_low _ _ hn, entry_low _ _ hn]
    rfl

section
variable {p : Params} {c : BankConfig} {addr : CpuAddr}

/-- Window $A000 by what the row shows (R147). -/
theorem translate_portA (h : entry p c (regionOf addr) = entryPortA p c) :
    translate (recompute p c) addr .write = .physical addr.toNat
    ∧ ((portRow p c).a = .basic → translate (recompute p c) addr .read
        = .physical (p.romBasicPa + (addr.setWidth 20 - 0x0A000)).toNat)
    ∧ ((portRow p c).a = .ram → translate (recompute p c) addr .read = .physical addr.toNat) := by
  rw [entryPortA] at h
  cases ha : (portRow p c).a with
  | ram =>
    have hanswer := translate_direct (by rw [h, ha])
    exact ⟨hanswer .write, nofun, fun _ => hanswer .read⟩
  | basic =>
    obtain ⟨hread, hwrite⟩ := translate_romOverRam (by rw [h, ha])
    exact ⟨hwrite, fun _ => hread, nofun⟩

/-- Window $D000 by what the row shows (R148). -/
theorem translate_portD (hD : regionOf addr = 13) (h : entry p c (regionOf addr) = entryPortD p c) :
    ((portRow p c).d = .io →
      translate (recompute p c) addr .read = .io addr ∧ translate (recompute p c) addr .write = .io addr)
    ∧ ((portRow p c).d = .chargen →
      translate (recompute p c) addr .read = .physical (p.romChargenPa + (addr.setWidth 20 - 0x0D000)).toNat
      ∧ translate (recompute p c) addr .write = .physical addr.toNat)
    ∧ ((portRow p c).d = .ram → translate (recompute p c) addr .read = .physical addr.toNat
      ∧ translate (recompute p c) addr .write = .physical addr.toNat) := by
  rw [entryPortD] at h
  cases hd : (portRow p c).d with
  | ram =>
    have hanswer := translate_direct (by rw [h, hd])
    exact ⟨nofun, nofun, fun _ => ⟨hanswer .read, hanswer .write⟩⟩
  | chargen =>
    have hanswer := translate_romOverRam (by rw [h, hd])
    exact ⟨nofun, fun _ => hanswer, nofun⟩
  | io =>
    have hio : ((recompute p c).get (regionOf addr)).io = true := by rw [recompute_get, h, hd]
    exact ⟨fun _ => ⟨translate_of_io _ addr .read hio hD, translate_of_io _ addr .write hio hD⟩, nofun, nofun⟩

/-- Window $E000 by what the row shows (R149). -/
theorem translate_portE (h : entry p c (regionOf addr) = entryPortE p c) :
    translate (recompute p c) addr .write = .physical addr.toNat
    ∧ ((portRow p c).e = .kernal → translate (recompute p c) addr .read
        = .physical (p.romKernalPa + (addr.setWidth 20 - 0x0E000)).toNat)
    ∧ ((portRow p c).e = .ram → translate (recompute p c) addr .read = .physical addr.toNat) := by
  rw [entryPortE] at h
  cases he : (portRow p c).e with
  | ram =>
    have hanswer := translate_direct (by rw [h, he])
    exact ⟨hanswer .write, nofun, fun _ => hanswer .read⟩
  | kernal =>
    obtain ⟨hread, hwrite⟩ := translate_romOverRam (by rw [h, he])
    exact ⟨hwrite, fun _ => hread, nofun⟩

end

/-- Settles O6: the window the address lies in, then what its entry answers. -/
theorem portWindowAccess : Obligations.PortWindowAccess := by
  unfold Obligations.PortWindowAccess
  intro p c addr hov hmap
  have hentry : entry p c (regionOf addr) = entryUnclaimed p c (regionOf addr) := entry_of_unclaimed hov hmap
  refine ⟨fun haddr => ?_, fun hlo hhi => ?_, fun hlo hhi => ?_, fun hlo => ?_⟩
  · have hn : regionOf addr = 8 ∨ regionOf addr = 9 ∨ regionOf addr = 12 := by
      rwa [← or_assoc, regionOf_window8, regionOf_windowC]
    have hdirect := hentry.trans (entryUnclaimed_direct p c (.inr hn))
    exact ⟨(recompute_get p c _).trans hdirect, translate_direct hdirect⟩
  · have hA := (regionOf_windowA addr).mpr ⟨hlo, hhi⟩
    exact translate_portA (hentry.trans (entryUnclaimed_portA p c hA))
  · have hD := (regionOf_windowD addr).mpr ⟨hlo, hhi⟩
    exact translate_portD hD (hentry.trans (entryUnclaimed_portD p c hD))
  · have hE := (regionOf_windowE addr).mpr hlo
    exact translate_portE (hentry.trans (entryUnclaimed_portE p c hE))

end Sys2Proof.Machine
end

section
/-! PROOFS. The BankConfig ports (R153 to R156): what each stores, and which writes leave the table as it is. -/

namespace Sys2Proof.Machine

/-! ### What the table depends on -/

/-- Two configurations with the same `cp` select the same row (R150). -/
theorem portRow_congr (p : Params) {c d : BankConfig} (h : cpuPort d = cpuPort c) : portRow p d = portRow p c := by
  rw [portRow, portRow, h]

/-- The CPU-port windows depend on `cp` alone (R147 to R149). -/
theorem entryUnclaimed_congr (p : Params) {c d : BankConfig} (h : cpuPort d = cpuPort c) (n : Region) :
    entryUnclaimed p d n = entryUnclaimed p c n := by
  simp only [entryUnclaimed, entryPortA, entryPortD, entryPortE, portRow_congr p h]

/-- An entry depends on the map fields, on whether an overlay claims the region, and on what the region shows when nothing
claims it (R142). -/
theorem entry_congr {p : Params} {c d : BankConfig} {n : Region} (hmap : mapFieldsEq c d)
    (hov : overlayClaims p d n = overlayClaims p c n) (hun : entryUnclaimed p d n = entryUnclaimed p c n) :
    entry p d n = entry p c n := by
  obtain ⟨hmask, hoffLow, hoffHigh, hmbLow, hmbHigh⟩ := hmap
  have hclaims : mapClaims d n = mapClaims c n := by rw [mapClaims, mapClaims, hmask]
  have hmapped : entryMapped p d n = entryMapped p c n := by
    rw [entryMapped, entryMapped, hoffLow, hoffHigh, hmbLow, hmbHigh]
  rw [entry, entry, hov, hun, hclaims, hmapped]

/-- The table depends on the map fields, on `cp` and on the windows the overlay bits claim (R142). -/
theorem recompute_congr {p : Params} {c d : BankConfig} (hmap : mapFieldsEq c d) (hcp : cpuPort d = cpuPort c)
    (hov : ∀ n, overlayClaims p d n = overlayClaims p c n) : recompute p d = recompute p c :=
  table_ext _ _ fun n => by
    rw [recompute_get, recompute_get]
    exact entry_congr hmap (hov n) (entryUnclaimed_congr p hcp n)

/-- A port's byte leaves the map fields alone. -/
theorem withPortByte_mapFields (b : BankPort) (v : Byte) (c : BankConfig) : mapFieldsEq c (withPortByte b v c) := by
  cases b <;> exact ⟨rfl, rfl, rfl, rfl, rfl⟩

/-! ### Which bits matter -/

/-- `cp` depends on the three bits it is made of (R140). -/
theorem cpuPort_congr {c d : BankConfig} (h : ∀ i, i < 3 →
    (!d.cpuPortDdr.getLsbD i || d.cpuPortData.getLsbD i) = (!c.cpuPortDdr.getLsbD i || c.cpuPortData.getLsbD i)) :
    cpuPort d = cpuPort c := by
  apply BitVec.eq_of_getLsbD_eq
  intro i hi
  rw [cpuPort_getLsbD d hi, cpuPort_getLsbD c hi, h i hi]

/-- Bits under a mask are equal when the difference vanishes there. -/
theorem getLsbD_eq_of_xor_and {v w m : Byte} (h : (v ^^^ w) &&& m = 0) {i : Nat} (hm : m.getLsbD i = true) :
    v.getLsbD i = w.getLsbD i := by
  have hbit := congrArg (BitVec.getLsbD · i) h
  simpa [hm] using hbit

/-- The difference of two bytes vanishes under a mask that hides it. -/
theorem xor_and_eq_zero {v w m : Byte} (h : v &&& m = w &&& m) : (v ^^^ w) &&& m = 0 := by
  have hdistrib : (v ^^^ w) &&& m = (v &&& m) ^^^ (w &&& m) := by
    ext i hi
    simp [Bool.and_xor_distrib_right]
  rw [hdistrib, h]
  exact BitVec.xor_self

/-- The three low bits of a byte are those under the mask 7. -/
theorem getLsbD_seven {i : Nat} (hi : i < 3) : (7 : Byte).getLsbD i = true := by
  revert i
  decide

/-- A `ddr` bit matters only among bits 2:0 and where the `data` bit is 0 (R154). -/
theorem cpuPort_ddr_congr (c : BankConfig) {v w : Byte} (h : (v ^^^ w) &&& (~~~c.cpuPortData &&& 7) = 0) :
    cpuPort { c with cpuPortDdr := v } = cpuPort { c with cpuPortDdr := w } := by
  refine cpuPort_congr fun i hi => ?_
  cases hdata : c.cpuPortData.getLsbD i with
  | true => simp
  | false =>
    have hbyte : i < 8 := by omega
    have hmask : (~~~c.cpuPortData &&& 7).getLsbD i = true := by
      rw [BitVec.getLsbD_and, getLsbD_seven hi, BitVec.getLsbD_not, hdata, decide_eq_true hbyte]
      rfl
    rw [getLsbD_eq_of_xor_and h hmask]

/-- A `data` bit matters only among bits 2:0 and where the `ddr` bit is 1 (R155). -/
theorem cpuPort_data_congr (c : BankConfig) {v w : Byte} (h : (v ^^^ w) &&& (c.cpuPortDdr &&& 7) = 0) :
    cpuPort { c with cpuPortData := v } = cpuPort { c with cpuPortData := w } := by
  refine cpuPort_congr fun i hi => ?_
  cases hddr : c.cpuPortDdr.getLsbD i with
  | false => simp
  | true =>
    have hmask : (c.cpuPortDdr &&& 7).getLsbD i = true := by
      rw [BitVec.getLsbD_and, getLsbD_seven hi, hddr, Bool.and_self]
    rw [getLsbD_eq_of_xor_and h hmask]

/-- Overlay bits matter only under the four masks (R156). -/
theorem overlayClaims_congr {p : Params} {c : BankConfig} {v : Byte}
    (h : (v ^^^ c.romOverlayBits) &&& (p.ov8Mask ||| p.ovAMask ||| p.ovCMask ||| p.ovEMask) = 0) (n : Region) :
    overlayClaims p { c with romOverlayBits := v } n = overlayClaims p c n := by
  cases hw : overlayWindow p n with
  | none => rw [overlayClaims_of_no_window _ hw, overlayClaims_of_no_window _ hw]
  | some w =>
    have hbits : v &&& w.mask = c.romOverlayBits &&& w.mask := by
      apply BitVec.eq_of_getLsbD_eq
      intro i _
      rw [BitVec.getLsbD_and, BitVec.getLsbD_and]
      cases hbit : w.mask.getLsbD i with
      | false => simp
      | true =>
        rw [getLsbD_eq_of_xor_and h]
        obtain hm | hm | hm | hm := overlayWindow_mask hw <;> rw [hm] at hbit <;> simp [hbit]
    rw [Bool.eq_iff_iff, overlayClaims_iff _ hw, overlayClaims_iff _ hw, hbits]

/-! ### The ports -/

/-- A port's operation stores its byte and rebuilds the table (R154 to R156). -/
theorem exec_portInstr_running {s : State} (b : BankPort) (v : Byte) (hrun : s.halted = none) :
    exec (portInstr b v) s = .next { s with
      cfg := withPortByte b v s.cfg, tt := recompute s.params (withPortByte b v s.cfg) } := by
  rw [exec_portInstr, whenRunning_running _ hrun, portWrite_eq_reachPort, reachPort]

/-- A port's operation that rebuilds the same table stores its byte and changes nothing else (R115). -/
theorem exec_portInstr_neutral {s : State} {b : BankPort} {v : Byte} (hrun : s.halted = none)
    (htable : s.tt = recompute s.params s.cfg)
    (hsame : recompute s.params (withPortByte b v s.cfg) = recompute s.params s.cfg) :
    exec (portInstr b v) s = .next { s with cfg := withPortByte b v s.cfg } := by
  rw [exec_portInstr_running b v hrun, hsame, ← htable]

/-- A port's byte that leaves `cp` and the claimed windows as they are rebuilds the same table. -/
theorem recompute_withPortByte {p : Params} {c : BankConfig} {b : BankPort} {v : Byte}
    (hcp : cpuPort (withPortByte b v c) = cpuPort c)
    (hov : ∀ n, overlayClaims p (withPortByte b v c) n = overlayClaims p c n) :
    recompute p (withPortByte b v c) = recompute p c :=
  recompute_congr (withPortByte_mapFields b v c) hcp hov

/-- Settles O11: each write leaves `cp` and the claimed windows as they are, so it rebuilds the same table. -/
theorem neutralBankWrites : Obligations.NeutralBankWrites := by
  unfold Obligations.NeutralBankWrites
  intro s v hrun htable
  refine ⟨fun h => ?_, fun h => ?_, fun h => ?_⟩
  · rw [BitVec.and_assoc] at h
    exact exec_portInstr_neutral (b := .ddr) hrun htable
      (recompute_withPortByte (cpuPort_ddr_congr s.cfg h) fun _ => rfl)
  · rw [BitVec.and_assoc] at h
    exact exec_portInstr_neutral (b := .data) hrun htable
      (recompute_withPortByte (cpuPort_data_congr s.cfg h) fun _ => rfl)
  · exact exec_portInstr_neutral (b := .overlay) hrun htable
      (recompute_withPortByte rfl (overlayClaims_congr h))

/-- Settles O13: the operands are reduced on write, and in BASE a selector reads 0. -/
theorem setMapEffect : Obligations.SetMapEffect := by
  unfold Obligations.SetMapEffect
  intro s mask offLo offHi mbLo mbHi hrun
  refine ⟨_, rfl, ?_, fun hbase => ⟨megabyte_base s.params mbLo hbase, megabyte_base s.params mbHi hbase⟩⟩
  have hreduce (x : Nat) : BitVec.ofNat 20 (x % 2 ^ 20) = BitVec.ofNat 20 x := by
    apply BitVec.eq_of_toNat_eq
    simp
  rw [exec_setMap, whenRunning_running _ hrun, hreduce, hreduce]
  rfl

/-! ### The rules' examples -/

/-- The table that the CPU port alone decides: nothing is mapped, no overlay bit is set (R142). -/
theorem recompute_unbanked_get (p : Params) (ddr data : Byte) (n : Region) :
    (recompute p { resetBank with cpuPortDdr := ddr, cpuPortData := data }).get n
      = entryUnclaimed p { resetBank with cpuPortDdr := ddr, cpuPortData := data } n := by
  rw [recompute_get]
  refine entry_of_unclaimed ?_ ?_
  · cases hw : overlayWindow p n with
    | none => exact overlayClaims_of_no_window _ hw
    | some w => simp [overlayClaims, hw, resetBank]
  · simp [mapClaims, resetBank]

/-- R154's example: with every `ddr` bit of `cp` an output and the data byte 0, `cp` is 0 and the whole space is RAM. -/
theorem writePortDdr_example : ∃ t, exec (.writePortDdr 0x07) State.reset = .next t ∧ cpuPort t.cfg = 0
    ∧ ∀ n, t.tt.get n = directEntry := by
  refine ⟨_, rfl, rfl, fun n => (recompute_unbanked_get profileP0 0x07 0x00 n).trans ?_⟩
  revert n
  decide

/-- R155's example: `cp` 5 shows I/O in region $D and RAM elsewhere. -/
theorem writePortData_example :
    ∃ t, exec (.writePortData 0x05) (State.reset.setBank { resetBank with cpuPortDdr := 0x07 }) = .next t
      ∧ cpuPort t.cfg = 5 ∧ (t.tt.get 13).io = true ∧ ∀ n, n ≠ 13 → t.tt.get n = directEntry := by
  refine ⟨_, rfl, rfl, rfl, fun n hn => (recompute_unbanked_get profileP0 0x07 0x05 n).trans ?_⟩
  revert n
  decide

/-- R156's example: overlay bit 7 puts the image at 0x3E000 under $E000, whatever else is banked. -/
theorem writeOverlay_example (c : BankConfig) : ∃ t, exec (.writeOverlay 0x80) (State.reset.setBank c) = .next t
    ∧ translate t.tt 0xE000 .read = .physical 0x3E000 := by
  have hclaimed : (0x80 : Byte) &&& profileP0.ovEMask ≠ 0 := by decide
  obtain ⟨-, hanswer⟩ := overlayAccess.1 profileP0 { c with romOverlayBits := 0x80 } 0xE000 0xE000 profileP0.ovEMask
    profileP0.ovEPa (.inr (.inr (.inr ⟨by decide, rfl, rfl, rfl⟩)))
  exact ⟨_, rfl, (hanswer hclaimed).1⟩

/-- Settles O14: the ports' effect, what `cp` and the table depend on, and the three examples. -/
theorem bankPortWrites : Obligations.BankPortWrites := by
  unfold Obligations.BankPortWrites
  refine ⟨fun s v hrun => ⟨exec_portInstr_running .ddr v hrun, exec_portInstr_running .data v hrun,
      exec_portInstr_running .overlay v hrun⟩,
    fun c v w => ⟨fun h => cpuPort_ddr_congr c ?_, fun h => cpuPort_data_congr c ?_⟩,
    fun p c v => ⟨fun h => recompute_withPortByte (b := .ddr) h fun _ => rfl,
      fun h => recompute_withPortByte (b := .data) h fun _ => rfl, fun n hn => ?_⟩,
    writePortDdr_example, writePortData_example, writeOverlay_example⟩
  · rw [BitVec.and_comm (~~~c.cpuPortData), ← BitVec.and_assoc, xor_and_eq_zero h]
    exact BitVec.zero_and
  · rw [← BitVec.and_assoc, h]
    exact BitVec.zero_and
  · rw [recompute_get, recompute_get]
    refine entry_congr (withPortByte_mapFields .overlay v c) ?_ rfl
    rw [overlayClaims_eq_false p _ hn, overlayClaims_eq_false p _ hn]

end Sys2Proof.Machine
end

section
/-! PROOFS. The CPU's accesses (R157 to R159, R64): of a region that is not I/O a byte of PhysicalStore, of region $D one
access of the IoDispatcher. -/

namespace Sys2Proof.Machine

/-! ### Reads and writes of memory -/

/-- A CPU read of a region that is not I/O returns the byte at its read side's address (R64). -/
theorem exec_cpuRead_memory {s : State} {addr : CpuAddr} (hrun : s.halted = none)
    (hio : (s.tt.get (regionOf addr)).io = false) :
    exec (.cpuRead addr) s
      = .next (s.setResult (physRead s ((s.tt.get (regionOf addr)).physical addr .read))) := by
  rw [exec_cpuRead, whenRunning_running _ hrun]
  simp only [memRead, translate_of_not_io s.tt addr .read hio]

/-- A CPU write of a region that is not I/O stores the byte at its write side's address (R64). -/
theorem exec_cpuWrite_memory {s : State} {addr : CpuAddr} (v : Byte) (hrun : s.halted = none)
    (hio : (s.tt.get (regionOf addr)).io = false) :
    exec (.cpuWrite addr v) s = .next (memStore ((s.tt.get (regionOf addr)).physical addr .write) v s) := by
  rw [exec_cpuWrite, whenRunning_running _ hrun]
  simp only [memWrite, translate_of_not_io s.tt addr .write hio]

/-- Settles O16: both operations are the read through the table. -/
theorem cpuFetchIsCpuRead : Obligations.CpuFetchIsCpuRead := by
  unfold Obligations.CpuFetchIsCpuRead
  intro s addr
  rw [exec_cpuFetch, exec_cpuRead]

/-- Settles O15: the read of the translated byte, and the fetch as that read. -/
theorem cpuReadOfMemory : Obligations.CpuReadOfMemory := by
  unfold Obligations.CpuReadOfMemory
  intro s addr hrun hio
  have hread := exec_cpuRead_memory hrun hio
  exact ⟨_, Entry.physical_eq _ addr .read, hread, (cpuFetchIsCpuRead s addr).trans hread⟩

/-- Settles O12: the low 32KB are direct and the table is kept, so both accesses reach the same byte. -/
theorem lowRamRoundTrip : Obligations.LowRamRoundTrip := by
  unfold Obligations.LowRamRoundTrip
  intro s addr v hrun htable hmask _ haddr hw hunbound
  have hmap : mapClaims s.cfg (regionOf addr) = false := by simp [mapClaims, hmask]
  have hentry : s.tt.get (regionOf addr) = directEntry := by
    rw [htable]
    exact (directAccess.1 s.params s.cfg addr .read hmap haddr).1
  have hwrap : wrapPhys s.params addr.toNat = addr.toNat := by
    rw [← setWidth_addr_toNat, wrapPhys_addr20]
  have hstore : exec (.cpuWrite addr v) s = .next (physWrite addr.toNat v s) := by
    rw [exec_cpuWrite_memory v hrun (by rw [hentry]; rfl), hentry, Entry.physical_zero addr rfl rfl,
      memStore_unbound _ _ _ (by rwa [hwrap])]
  obtain ⟨m, hm, -⟩ := physWrite_spec addr.toNat v s
  have hback : physRead (physWrite addr.toNat v s) addr.toNat = v := by
    rw [physRead_physWrite, if_pos ⟨rfl, by rwa [hwrap]⟩]
  rw [hm] at hstore hback
  refine ⟨_, hstore, ?_⟩
  rw [exec_cpuRead_memory (s := s.setPhys m) hrun (by rw [State.setPhys_tt, hentry]; rfl), State.setPhys_tt, hentry,
    Entry.physical_zero addr rfl rfl, hback]
  rfl

/-! ### Platform bindings -/

/-- What a lookup by key finds is listed under that key. -/
theorem mem_of_find?_key {α β : Type} [DecidableEq α] {l : List (α × β)} {a : α} {x : α × β}
    (h : l.find? (fun b => b.1 == a) = some x) : (a, x.2) ∈ l := by
  have hkey : x.1 = a := by simpa using List.find?_some h
  exact hkey ▸ List.mem_of_find?_eq_some h

/-- A key that a lookup does not find is not listed. -/
theorem not_mem_of_find?_key {α β : Type} [DecidableEq α] {l : List (α × β)} {a : α}
    (h : l.find? (fun b => b.1 == a) = none) (y : β) : (a, y) ∉ l := fun hmem => by
  simpa using List.find?_eq_none.mp h _ hmem

/-- The port found at a physical address is one the platform binds there (D12). -/
theorem memBindingAt_mem {p : Params} {a : Nat} {b : BankPort} (h : memBindingAt p a = some b) :
    (a, b) ∈ p.memBindings := by
  cases hfind : p.memBindings.find? (fun b => b.1 == a) with
  | none => simp [memBindingAt, hfind] at h
  | some x =>
    obtain ⟨-, rfl⟩ : writableAt p a = true ∧ x.2 = b := by simpa [memBindingAt, hfind] using h
    exact mem_of_find?_key hfind

/-- A writable byte at which no port is found is bound to none (D12). -/
theorem not_mem_of_memBindingAt {p : Params} {a : Nat} (h : memBindingAt p a = none) (hw : writableAt p a = true)
    (b : BankPort) : (a, b) ∉ p.memBindings := by
  cases hfind : p.memBindings.find? (fun b => b.1 == a) with
  | none => exact not_mem_of_find?_key hfind b
  | some x => simp [memBindingAt, hfind, hw] at h

/-- The port found at an I/O address is one the platform binds there (R63(d)). -/
theorem bindingAt_mem {p : Params} {a : CpuAddr} {b : BankPort} (h : bindingAt p a = some b) :
    (a, b) ∈ p.ioBindings := by
  cases hfind : p.ioBindings.find? (fun b => b.1 == a) with
  | none => simp [bindingAt, hfind] at h
  | some x =>
    obtain rfl : x.2 = b := by simpa [bindingAt, hfind] using h
    exact mem_of_find?_key hfind

/-- An I/O address at which no port is found is bound to none (R63(d)). -/
theorem not_mem_of_bindingAt {p : Params} {a : CpuAddr} (h : bindingAt p a = none) (b : BankPort) :
    (a, b) ∉ p.ioBindings := by
  cases hfind : p.ioBindings.find? (fun b => b.1 == a) with
  | none => exact not_mem_of_find?_key hfind b
  | some x => simp [bindingAt, hfind] at h

/-- The stored byte reads back, and every other address reads as before (R61, R62). -/
theorem physRead_of_byteStored {s : State} {pa : Nat} {v : Byte} {m : Memory} (h : byteStored s pa v m)
    (hw : writableAt s.params pa = true) (a : Nat) :
    physRead { s with phys := m } a = if wrapPhys s.params a = pa then v else physRead s a := by
  simp only [physRead, h (wrapPhys s.params a), hw, and_true]
  by_cases hsame : wrapPhys s.params a = pa
  · simp only [if_pos hsame]
  · simp only [if_neg hsame]

/-- A port's write and a stored byte commute (D12). -/
theorem setPhys_reachPort (b : Option BankPort) (v : Byte) (s : State) (m : Memory) :
    (reachPort b v s).setPhys m = reachPort b v (s.setPhys m) := by
  cases b <;> rfl

/-- Settles O18: the write is `memStore` at the translated address, which stores the byte and reaches the port bound
there, or is discarded. -/
theorem cpuWriteToMemory : Obligations.CpuWriteToMemory := by
  unfold Obligations.CpuWriteToMemory
  refine ⟨fun p a => ⟨fun b h => ⟨memBindingAt_mem h, memBindingAt_writable h⟩, not_mem_of_memBindingAt⟩,
    fun s addr v hrun hio => ?_⟩
  have hexec := exec_cpuWrite_memory v hrun hio
  rw [Entry.physical_eq] at hexec
  refine ⟨_, rfl, fun hw => ?_, fun hro => ?_⟩
  · obtain ⟨m, hm, hstore⟩ := memStore_stores _ v s
    rw [setPhys_reachPort] at hstore
    exact ⟨m, hexec.trans (congrArg _ hstore), physRead_of_byteStored hm hw⟩
  · exact hexec.trans (congrArg _ (memStore_discarded _ v s hro))

/-! ### Accesses of the IoDispatcher -/

/-- A CPU read of region $D with an I/O entry is one IoRead (R64). -/
theorem exec_cpuRead_io {s : State} {addr : CpuAddr} (hrun : s.halted = none) (hD : regionOf addr = 13)
    (hio : (s.tt.get 13).io = true) :
    exec (.cpuRead addr) s = .next ((ioRead addr s).2.setResult (ioRead addr s).1) := by
  rw [exec_cpuRead, whenRunning_running _ hrun]
  simp only [memRead, translate_of_io s.tt addr .read (by rwa [hD]) hD]

/-- A CPU write of region $D with an I/O entry is one IoWrite (R64). -/
theorem exec_cpuWrite_io {s : State} {addr : CpuAddr} (v : Byte) (hrun : s.halted = none) (hD : regionOf addr = 13)
    (hio : (s.tt.get 13).io = true) : exec (.cpuWrite addr v) s = ioWriteCpu addr v s := by
  rw [exec_cpuWrite, whenRunning_running _ hrun]
  simp only [memWrite, translate_of_io s.tt addr .write (by rwa [hD]) hD]

/-- DMA_REG_BASE of a legal configuration leaves room for the four registers below $E000 (R5). -/
theorem legal_dmaRegBase {p : Params} (h : p.legal = true) : p.dmaRegBase.toNat ≤ 0xDFFC := by
  simp only [Params.legal, Bool.and_eq_true, decide_eq_true_eq, and_assoc] at h
  obtain ⟨-, -, -, -, -, -, -, -, -, -, -, hbase, -⟩ := h
  exact hbase

/-- Register `i` of a legal configuration is the address `DMA_REG_BASE + i` (R63(c), R252). -/
theorem regIndex_eq_some_iff {p : Params} (h : p.legal = true) (a : CpuAddr) (i : BitVec 2) :
    regIndex p a = some i ↔ a.toNat = p.dmaRegBase.toNat + i.toNat := by
  have hbase := legal_dmaRegBase h
  have hi := i.isLt
  have ha := a.isLt
  have hsub := BitVec.toNat_sub a p.dmaRegBase
  unfold regIndex
  split
  · rw [Option.some_inj, ← BitVec.toNat_inj, BitVec.extractLsb'_toNat, Nat.shiftRight_zero]
    omega
  · simp only [reduceCtorEq, false_iff]
    omega

/-- An address is unimplemented when no port is bound to it and a listed range holds it (R63(b); assumption 9). -/
theorem unimplementedAt_iff (p : Params) (a : CpuAddr) : unimplementedAt p a = true ↔
    bindingAt p a = none ∧ ∃ r ∈ p.ioUnimplemented, r.1.toNat ≤ a.toNat ∧ a.toNat ≤ r.2.toNat := by
  simp [unimplementedAt, BitVec.le_def]

/-- Settles O17: the read is one IoRead, whose three cases are those of `ioRead`. -/
theorem cpuReadOfIo : Obligations.CpuReadOfIo := by
  unfold Obligations.CpuReadOfIo
  refine ⟨fun p a i h => regIndex_eq_some_iff h a i, fun s => ⟨rfl, rfl, rfl, rfl⟩, unimplementedAt_iff,
    fun s addr hrun hD hio => ?_⟩
  rw [exec_cpuRead_io hrun hD hio]
  obtain ⟨j, hj, h⟩ | ⟨hnone, hu, h⟩ | ⟨hnone, hu, v, h⟩ := ioRead_cases addr s <;> rw [h]
  · refine ⟨fun i hi => ?_, fun hi => ?_, fun hi => ?_⟩
    · cases hj.symm.trans hi
      rfl
    · cases hj.symm.trans hi
    · cases hj.symm.trans hi
  · refine ⟨fun i hi => ?_, fun _ _ => rfl, fun _ himpl => ?_⟩
    · cases hnone.symm.trans hi
    · cases hu.symm.trans himpl
  · refine ⟨fun i hi => ?_, fun _ hunimpl => ?_, fun _ _ => ⟨v, rfl⟩⟩
    · cases hnone.symm.trans hi
    · cases hu.symm.trans hunimpl

/-- The write of DMA register `i` as an instruction (R110). -/
theorem exec_regWriteInstr (i : BitVec 2) (v : Byte) (s : State) :
    exec (regWriteInstr i v) s = whenRunning s (dmaRegWrite i v) := by
  obtain rfl | rfl | rfl | rfl := regIndex_values i <;> rfl

/-- The CPU's IoWrite to DMA register `i` is the register's write, after the IoDispatcher has seen it (R63(c)). -/
theorem ioWriteCpu_register {s : State} {a : CpuAddr} {i : BitVec 2} (v : Byte) (hrun : s.halted = none)
    (h : regIndex s.params a = some i) :
    ioWriteCpu a v s = exec (regWriteInstr i v) (s.pushIo (.write a v)) := by
  have hseen : (s.pushIo (.write a v)).halted = none := hrun
  rw [exec_regWriteInstr, whenRunning_running _ hseen]
  simp only [ioWriteCpu, h]

/-- The CPU's IoWrite outside the DMA registers (R63(b), (d)). -/
theorem ioWriteCpu_other {s : State} {a : CpuAddr} (v : Byte) (h : regIndex s.params a = none) :
    ioWriteCpu a v s = .next (ioWriteOther a v (s.pushIo (.write a v))) := by
  simp only [ioWriteCpu, h]

/-- The CPU's IoWrite to an unbound address logs, or does nothing inside the block (R63(b), (d)). -/
theorem ioWriteCpu_unbound {s : State} {a : CpuAddr} (v : Byte) (h : regIndex s.params a = none)
    (hb : bindingAt s.params a = none) :
    ioWriteCpu a v s = .next (if unimplementedAt s.params a then (s.pushIo (.write a v)).pushLog (.unimplementedIo a)
      else s.pushIo (.write a v)) := by
  rw [ioWriteCpu_other v h]
  cases hu : unimplementedAt s.params a <;> simp [ioWriteOther, hb, hu]

/-- The CPU's IoWrite to a bound address is the port's operation (R63(d)). -/
theorem ioWriteCpu_port {s : State} {a : CpuAddr} {b : BankPort} (v : Byte) (hrun : s.halted = none)
    (h : regIndex s.params a = none) (hb : bindingAt s.params a = some b) :
    ioWriteCpu a v s = exec (portInstr b v) (s.pushIo (.write a v)) := by
  have hseen : (s.pushIo (.write a v)).halted = none := hrun
  rw [ioWriteCpu_other v h, exec_portInstr, whenRunning_running _ hseen]
  simp only [ioWriteOther, State.pushIo_params, hb]

/-- Settles O19: the write is one IoWrite, which the register or the binding of the address decides. -/
theorem cpuWriteToIo : Obligations.CpuWriteToIo := by
  unfold Obligations.CpuWriteToIo
  refine ⟨fun p a => ⟨fun b => bindingAt_mem, not_mem_of_bindingAt⟩, fun s addr v hrun hD hio => ?_⟩
  rw [exec_cpuWrite_io v hrun hD hio]
  refine ⟨_, rfl, fun i hi => ioWriteCpu_register v hrun ?_, rfl, rfl, rfl, rfl,
    fun hnone => ⟨ioWriteCpu_port (b := .ddr) v hrun hnone, ioWriteCpu_port (b := .data) v hrun hnone,
      ioWriteCpu_port (b := .overlay) v hrun hnone,
      fun hb hu => (ioWriteCpu_unbound v hnone hb).trans (congrArg _ (if_pos hu)),
      fun hb hu => (ioWriteCpu_unbound v hnone hb).trans (congrArg _ (if_neg (Bool.eq_false_iff.mp hu)))⟩⟩
  obtain hi | ⟨hlegal, haddr⟩ := hi
  · exact hi
  · exact (regIndex_eq_some_iff hlegal addr i).mpr haddr

end Sys2Proof.Machine
end

section
/-! PROOFS. The DMA registers (R180 to R184) and the trigger of register 0, which arms the engine and, under DRAIN, runs it
to the end (R181, R182, R190). -/

namespace Sys2Proof.Machine

/-! ### Registers -/

/-- Settles O24: registers 1 and 2 store their byte and register 3 stores nothing; the list address is the bytes of
registers 2, 1 and 0. -/
theorem listRegisterWrites : Obligations.ListRegisterWrites := by
  unfold Obligations.ListRegisterWrites
  have hwrites (s : State) (v : Byte) (hrun : s.halted = none) :
      exec (.dmaRegWriteListHi v) s = .next { s with dreg1 := v }
      ∧ exec (.dmaRegWriteListBank v) s = .next { s with dreg2 := v }
      ∧ exec (.dmaRegWriteStatus v) s = .next s := by
    rw [exec_dmaRegWriteListHi, exec_dmaRegWriteListBank, exec_dmaRegWriteStatus, whenRunning_running _ hrun,
      whenRunning_running _ hrun, whenRunning_running _ hrun]
    exact ⟨rfl, rfl, rfl⟩
  refine ⟨hwrites, fun s hrun => ?_⟩
  obtain ⟨hhi, -, -⟩ := hwrites s 0x10 hrun
  obtain ⟨-, hbank, -⟩ := hwrites { s with dreg1 := 0x10 } 0x00 hrun
  have hhead : (0x00#8 ++ 0x10#8 : BitVec 16) = 0x0010#16 := rfl
  exact ⟨_, _, hhi, hbank, congrArg (· ++ s.dreg0) hhead⟩

/-- Settles O25: each read returns its byte, and the status byte is read off the two flags. -/
theorem registerReads : Obligations.RegisterReads := by
  unfold Obligations.RegisterReads
  refine ⟨fun s hrun => ?_, fun s => ?_, rfl⟩
  · rw [exec_dmaRegReadListLo, exec_dmaRegReadListHi, exec_dmaRegReadListBank, exec_dmaRegReadStatus,
      whenRunning_running _ hrun, whenRunning_running _ hrun, whenRunning_running _ hrun, whenRunning_running _ hrun]
    exact ⟨rfl, rfl, rfl, rfl⟩
  · unfold statusByte
    generalize s.busy = busy
    generalize s.chainCont = chainCont
    revert busy chainCont
    decide

/-! ### The trigger on an idle engine -/

/-- The list address as a number (R111). -/
theorem listAddress_toNat (s : State) :
    (listAddress s).toNat = s.dreg2.toNat * 65536 + s.dreg1.toNat * 256 + s.dreg0.toNat := by
  have h1 := s.dreg1.isLt
  have h0 := s.dreg0.isLt
  rw [listAddress, BitVec.toNat_append, BitVec.toNat_append, ← Nat.shiftLeft_add_eq_or_of_lt h1,
    ← Nat.shiftLeft_add_eq_or_of_lt h0, Nat.shiftLeft_eq, Nat.shiftLeft_eq]
  omega

/-- In BASE a physical address has 20 bits (R5, R29). -/
theorem physSize_base {p : Params} (h : p.variant = .base) : p.physSize = 2 ^ 20 := by
  simp [Params.physSize, Params.paBits, Params.mbBits, h]

/-- What a trigger in BASE leaves when it has armed the engine: the list address assembled from the byte written and
registers 1 and 2 (R181, R182). -/
def triggered (v : Byte) (s : State) : State :=
  { s with
    dreg0 := v
    lp := (s.dreg2.toNat * 65536 + s.dreg1.toNat * 256 + v.toNat) % 2 ^ 20
    busy := true
    chainCont := false
    phase := .fetch
    iterCount := 0 }

/-- `start` writes what `triggered` names, whatever else the state has become since register 0 was written. -/
theorem armEngine_listAddress {s u : State} (v : Byte) (hbase : u.params.variant = .base) :
    armEngine (listAddress (s.setDreg0 v)) u
      = { u with
          lp := (s.dreg2.toNat * 65536 + s.dreg1.toNat * 256 + v.toNat) % 2 ^ 20
          busy := true
          chainCont := false
          phase := .fetch
          iterCount := 0 } := by
  have hlp : wrapPhys u.params (listAddress (s.setDreg0 v)).toNat
      = (s.dreg2.toNat * 65536 + s.dreg1.toNat * 256 + v.toNat) % 2 ^ 20 := by
    rw [wrapPhys, physSize_base hbase, listAddress_toNat]
    rfl
  rw [armEngine, hlp]
  rfl

/-- In BASE the trigger drains the prior chain, then arms the new one and runs it as the policy says (R182). -/
theorem exec_trigger {s : State} (v : Byte) (hrun : s.halted = none) (hbase : s.params.variant = .base) :
    exec (.dmaRegWriteListLo v) s
      = andThen (drainPrior (s.setDreg0 v)) (fun u => runArmed (armEngine (listAddress (s.setDreg0 v)) u)) := by
  rw [exec_dmaRegWriteListLo, whenRunning_running _ hrun, dmaRegWrite_zero, startDma, State.setDreg0_params, hbase]

/-- In BASE the trigger of an idle engine arms it at once (R182). -/
theorem exec_trigger_idle {s : State} (v : Byte) (hrun : s.halted = none) (hbase : s.params.variant = .base)
    (hidle : s.busy = false) : exec (.dmaRegWriteListLo v) s = runArmed (triggered v s) := by
  have hprior : drainPrior (s.setDreg0 v) = .next (s.setDreg0 v) := by simp [drainPrior, hidle]
  rw [exec_trigger v hrun hbase, hprior, andThen_running _ (by simpa using hrun),
    armEngine_listAddress v (by simpa using hbase)]
  rfl

/-- Under INTERLEAVED an armed engine waits for its calls (R190). -/
theorem runArmed_interleaved {s : State} {k : Nat} (h : s.params.dmaPolicy = .interleaved k) : runArmed s = .next s := by
  simp only [runArmed, h]

/-- Settles O26: the engine is armed, and under INTERLEAVED it is not run. -/
theorem triggerArmsEngine : Obligations.TriggerArmsEngine := by
  unfold Obligations.TriggerArmsEngine
  intro s v k hrun hbase hidle hpol
  rw [exec_trigger_idle v hrun hbase hidle, runArmed_interleaved (s := triggered v s) hpol]
  rfl

end Sys2Proof.Machine
end

section
/-! PROOFS. The calls of the engine: what one call does in each phase (R185 to R188), how calls are counted (R186), and how
a run of them ends, as `engineCalls` and as a drain (R182, R189, R280). -/

namespace Sys2Proof.Machine

/-! ### One call -/

/-- In a running block DmaStep is the engine's call (R185). -/
theorem exec_dmaStep_running {s : State} (hrun : s.halted = none) : exec .dmaStep s = engineStep s := by
  rw [exec_dmaStep, whenRunning_running _ hrun]

/-- Settles O31, from the engine's call when idle and at the ceiling. -/
theorem idleAndCeilingSteps : Obligations.IdleAndCeilingSteps := by
  unfold Obligations.IdleAndCeilingSteps
  refine ⟨fun s hrun hidle => ?_, fun s hrun hbusy hceil => ?_⟩
  · rw [exec_dmaStep_running hrun, engineStep_idle hidle]
  · rw [exec_dmaStep_running hrun, engineStep_ceiling hbusy hceil]
    rfl

/-- Settles O34: the counted call runs the execute step, which is the decoded instruction's meaning. -/
theorem dmaStepRunsLatchedCommand : Obligations.DmaStepRunsLatchedCommand := by
  unfold Obligations.DmaStepRunsLatchedCommand
  intro s i hrun hbusy hphase hlt hdec
  obtain rfl : decodeCmd s.params.implementedOps s.cur.command = i := by simpa [decode] using hdec
  rw [exec_dmaStep_running hrun, engineStep_execute hbusy hlt hphase]
  exact executeStep_eq_exec (s := s.setIter (s.iterCount + 1)) hrun

/-- The step of a 24-bit field, from its two bits (R106). -/
def stepOfWord (A : BitVec 24) : Step := if A.getLsbD 20 then .hold else if A.getLsbD 22 then .down else .up

/-- A side latched from its 24-bit field (R105, R106). -/
theorem sideLatch_addr3OfWord (A : BitVec 24) :
    sideLatch (addr3OfWord A) = ⟨A.extractLsb' 0 20, A.getLsbD 23, stepOfWord A, 0⟩ := rfl

/-- Settles O32: the call in Fetch is the latch of the bytes at `lp`, whose fields `fetchDescriptor_eq` lists. -/
theorem fetchLatchesDescriptor : Obligations.FetchLatchesDescriptor := by
  unfold Obligations.FetchLatchesDescriptor
  intro s b hrun hbusy hphase hlt hb
  refine ⟨_, _, stepOfWord, rfl, rfl, fun _ => rfl, ?_⟩
  rw [exec_dmaStep_running hrun, engineStep_fetch hbusy hlt hphase, fetchDescriptor_eq, subcmdAt_eq, Params.descLen_eq]
  simp only [hb]
  rfl

/-! ### How a call of a busy engine ends -/

/-- The chain has ended with nothing left of its last descriptor, which has no chain bit (R189, R280). -/
def ChainOver (t : State) : Prop :=
  chainEnded t ∧ t.chainCont = false ∧ t.remaining = 0 ∧ (cmdBitsOf t.cur.command).chain = false

/-- The run-away guard has halted the engine, still busy (R186, R242). -/
def RanAway (t : State) : Prop :=
  t.busy = true ∧ t.halted = some (.runawayDma t.lp) ∧ t.params.dmaMaxIterations ≤ t.iterCount

/-- The tail of an Execute step leaves the engine busy, or the chain over (R189). -/
theorem executeTail_ends {s : State} (hrun : s.halted = none) (hbusy : s.busy = true) :
    (executeTail (cmdBitsOf s.cur.command) s).busy = true ∨ ChainOver (executeTail (cmdBitsOf s.cur.command) s) := by
  obtain ⟨-, h⟩ | ⟨-, -, h⟩ | ⟨-, hchain, h⟩ := executeTail_cases (cmdBitsOf s.cur.command) s <;> rw [h]
  · exact .inl hbusy
  · exact .inl hbusy
  · exact .inr ⟨⟨rfl, hrun⟩, rfl, rfl, hchain⟩

/-- The tail leaves the latch and the counter alone (R188). -/
theorem executeTail_halted_iterCount (c : CmdBits) (s : State) :
    (executeTail c s).halted = s.halted ∧ (executeTail c s).iterCount = s.iterCount := by
  obtain ⟨-, h⟩ | ⟨-, -, h⟩ | ⟨-, -, h⟩ := executeTail_cases c s <;> rw [h] <;> exact ⟨rfl, rfl⟩

/-- Everything a call of a busy engine can answer as a next state: the guard fires at the ceiling, or the call is counted
and leaves the engine busy or the chain over (R185, R186, R189). -/
theorem engineStep_busy {s t : State} (hrun : s.halted = none) (hbusy : s.busy = true) (h : engineStep s = .next t) :
    (s.params.dmaMaxIterations ≤ s.iterCount ∧ RanAway t)
    ∨ (s.iterCount < s.params.dmaMaxIterations ∧ t.halted = none ∧ t.iterCount = s.iterCount + 1
        ∧ (t.busy = true ∨ ChainOver t)) := by
  obtain ⟨hidle, -⟩ | ⟨-, hceil, rfl⟩ | ⟨-, hlt, -, rfl⟩ | ⟨-, hlt, -, u, hu, rfl⟩ := engineStep_cases h hrun
  · simp [hbusy] at hidle
  · exact .inl ⟨hceil, hbusy, rfl, hceil⟩
  · refine .inr ⟨hlt, ?_⟩
    rw [fetchDescriptor_eq]
    exact ⟨hrun, rfl, .inl hbusy⟩
  · have f := bodyOf_frame hu
    have hcur : u.cur = s.cur := f.cur
    obtain ⟨hhalted, hiter⟩ := executeTail_halted_iterCount (cmdBitsOf s.cur.command) u
    refine .inr ⟨hlt, hhalted.trans (f.halted.trans hrun), hiter.trans f.iterCount, ?_⟩
    rw [← hcur]
    exact executeTail_ends (f.halted.trans hrun) (f.busy.trans hbusy)

/-- Settles O56: of what a call of a busy engine can leave, only the end of the chain is not busy. -/
theorem endOfChain : Obligations.EndOfChain := by
  unfold Obligations.EndOfChain
  intro s t h hbusy hidle
  obtain ⟨hrun, hstep⟩ := whenRunning_next.mp h
  obtain ⟨-, haway, -⟩ | ⟨-, -, -, hstill | ⟨hended, hchain, hleft, hbit⟩⟩ := engineStep_busy hrun hbusy hstep
  · simp [hidle] at haway
  · simp [hidle] at hstill
  · exact ⟨hended, hleft, hchain, hbit⟩

/-! ### A number of calls -/

/-- The calls after a first one that raises nothing. -/
theorem engineCalls_succ {s u : State} (n : Nat) (h : exec .dmaStep s = .next u) (hu : u.halted = none) :
    engineCalls (n + 1) s = engineCalls n u := by
  rw [engineCalls, h, andThen_running _ hu]

/-- The calls after some that raise nothing. -/
theorem engineCalls_add {s u : State} {m : Nat} (n : Nat) (hs : s.halted = none) (h : engineCalls m s = .next u)
    (hu : u.halted = none) : engineCalls (m + n) s = engineCalls n u := by
  induction m generalizing s with
  | zero =>
    cases h
    rw [Nat.zero_add]
  | succ m ih =>
    obtain ⟨t, ht, ⟨hrun, hk⟩ | ⟨hhalt, rfl⟩⟩ := andThen_next.mp h
    · rw [Nat.add_right_comm, engineCalls_succ _ ht hrun, ih hrun hk]
    · exact absurd hu hhalt

/-- Calls of an idle engine do nothing (R185). -/
theorem engineCalls_idle {s : State} (n : Nat) (hrun : s.halted = none) (hidle : s.busy = false) :
    engineCalls n s = .next s := by
  induction n with
  | zero => rfl
  | succ n ih => rw [engineCalls_succ n (idleAndCeilingSteps.1 s hrun hidle) hrun, ih]

/-- Every call that leaves the engine busy is counted (R186). -/
theorem engineCalls_counted (n : Nat) (s t : State) (hrun : s.halted = none) (h : engineCalls n s = .next t)
    (ht : t.halted = none) (hbusy : t.busy = true) : t.iterCount = s.iterCount + n := by
  induction n generalizing s with
  | zero =>
    cases h
    rfl
  | succ n ih =>
    cases hs : s.busy with
    | false =>
      rw [engineCalls_idle _ hrun hs] at h
      cases h
      simp [hs] at hbusy
    | true =>
      obtain ⟨u, hu, ⟨hur, hk⟩ | ⟨hhalt, rfl⟩⟩ := andThen_next.mp h
      · obtain ⟨-, -, haway, -⟩ | ⟨-, -, hcount, -⟩ := engineStep_busy hrun hs (whenRunning_next.mp hu).2
        · simp [hur] at haway
        · rw [ih u hur hk, hcount]
          omega
      · exact absurd ht hhalt

/-- Calls the ceiling allows raise nothing (R186). -/
theorem engineCalls_allowed (n : Nat) (s t : State) (hrun : s.halted = none) (h : engineCalls n s = .next t)
    (hallowed : s.iterCount + n ≤ s.params.dmaMaxIterations) : t.halted = none := by
  induction n generalizing s with
  | zero =>
    cases h
    exact hrun
  | succ n ih =>
    cases hs : s.busy with
    | false =>
      rw [engineCalls_idle _ hrun hs] at h
      cases h
      exact hrun
    | true =>
      obtain ⟨u, hu, hk⟩ := andThen_next.mp h
      obtain ⟨hceil, -⟩ | ⟨-, hur, hcount, -⟩ := engineStep_busy hrun hs (whenRunning_next.mp hu).2
      · omega
      · obtain ⟨-, hk⟩ | ⟨hhalt, -⟩ := hk
        · refine ih u hur hk ?_
          rw [hcount, exec_params hu]
          omega
        · exact absurd hur hhalt

/-- No number of calls writes the configuration record (R5). -/
theorem engineCalls_params (n : Nat) (s t : State) (h : engineCalls n s = .next t) : t.params = s.params := by
  induction n generalizing s with
  | zero =>
    cases h
    rfl
  | succ n ih =>
    obtain ⟨u, hu, ⟨-, hk⟩ | ⟨-, rfl⟩⟩ := andThen_next.mp h
    · exact (ih u hk).trans (exec_params hu)
    · exact exec_params hu

/-- Settles O44: the count, no fire below the ceiling, and the call at the ceiling. -/
theorem callsAreCounted : Obligations.CallsAreCounted := by
  unfold Obligations.CallsAreCounted
  refine ⟨engineCalls_counted, engineCalls_allowed, fun s t hrun hzero h hbusy => ?_⟩
  have hparams := engineCalls_params _ s t h
  have ht : t.halted = none := engineCalls_allowed _ s t hrun h (by omega)
  have hcount := engineCalls_counted _ s t hrun h ht hbusy
  refine idleAndCeilingSteps.2 t ht hbusy ?_
  rw [hparams]
  omega

end Sys2Proof.Machine
end

section
/-! PROOFS. One Execute step, whatever its sides are: refused when a write of it reaches DMA register 0, else its accesses
in their order, then the tail (R191, R188, R210 to R214). -/

namespace Sys2Proof.Machine

/-! ### Accesses of a side, as the relations of the statements -/

/-- The read of a side is one of `sideReads` (R65). -/
theorem dmaRead_sideReads (n : SideName) (s : State) : sideReads s n (dmaRead n s).1 (dmaRead n s).2 := by
  cases hio : (sideOf s n).io with
  | true =>
    simp only [dmaRead, hio, if_true]
    exact .inl ⟨hio, _, ioAddrOf_toNat _, ioRead_reads _ s⟩
  | false =>
    rw [dmaRead_mem n s hio]
    exact .inr ⟨hio, by rw [cursorAddr, physRead_wrapPhys], rfl⟩

/-- A write of a side that does not reach DMA register 0 completes, as one of `sideWrites` (R65, R191). -/
theorem dmaWrite_sideWrites {n : SideName} (v : Byte) {s : State} (h : ¬ hitsTrigger s n) :
    ∃ t, sideWrites s n v t ∧ dmaWrite n v s = .next t := by
  cases hio : (sideOf s n).io with
  | true =>
    obtain ⟨t, ht, hnext⟩ := ioWriteEngine_writes v (fun h0 => h ⟨hio, h0⟩)
    refine ⟨t, .inl ⟨hio, _, ioAddrOf_toNat _, ht⟩, ?_⟩
    rw [← hnext]
    exact if_pos hio
  | false =>
    obtain ⟨m, hm, hnext⟩ := dmaWrite_stores v hio
    rw [setPhys_reachPort] at hnext
    exact ⟨_, .inr ⟨hio, m, hm, rfl⟩, hnext⟩

/-- A write of a side that reaches DMA register 0 is refused (R191). -/
theorem dmaWrite_trigger {n : SideName} (v : Byte) {s : State} (h : hitsTrigger s n) :
    dmaWrite n v s = .refused .nestedDmaStart := by
  obtain ⟨hio, hreg⟩ := h
  simp [dmaWrite, hio, ioWriteEngine, hreg]

/-- No access moves a side onto DMA register 0 or away from it (R65). -/
theorem AccessFrame.hitsTrigger {s t : State} (f : AccessFrame s t) (n : SideName) :
    hitsTrigger t n ↔ hitsTrigger s n := by
  rw [Machine.hitsTrigger, Machine.hitsTrigger, f.params, f.sideOf, f.cursorOf]

/-! ### The byte operation of a command -/

/-- A byte operation none of whose writes reaches DMA register 0 completes with its accesses in their order (R210 to
R214). -/
theorem bodyOf_completes {op : Op} (c : CmdBits) {s : State} (hs : s.halted = none)
    (h : ∀ n, writesSide op n → ¬ hitsTrigger s n) :
    ∃ u, stepAccesses op c s u ∧ bodyOf op c s = .next u := by
  have fsrc := dmaRead_frame .src s
  have ftgt := fsrc.trans (dmaRead_frame .tgt (dmaRead .src s).2)
  cases op with
  | copy =>
    obtain ⟨t, ht, hnext⟩ := dmaWrite_sideWrites (dmaRead .src s).1 (mt (fsrc.hitsTrigger .tgt).mp (h .tgt rfl))
    exact ⟨t, ⟨_, _, dmaRead_sideReads .src s, ht⟩, hnext⟩
  | mix =>
    obtain ⟨t, ht, hnext⟩ := dmaWrite_sideWrites _ (mt (ftgt.hitsTrigger .tgt).mp (h .tgt rfl))
    exact ⟨t, ⟨_, _, _, _, dmaRead_sideReads .src s, dmaRead_sideReads .tgt _, ht⟩, hnext⟩
  | swap =>
    obtain ⟨y, hy, hnext⟩ := dmaWrite_sideWrites (dmaRead .tgt (dmaRead .src s).2).1
      (mt (ftgt.hitsTrigger .src).mp (h .src trivial))
    have fy := ftgt.trans (dmaWrite_frame hnext)
    obtain ⟨t, ht, hlast⟩ := dmaWrite_sideWrites (dmaRead .src s).1 (mt (fy.hitsTrigger .tgt).mp (h .tgt trivial))
    refine ⟨t, ⟨_, _, _, _, y, dmaRead_sideReads .src s, dmaRead_sideReads .tgt _, hy, ht⟩, ?_⟩
    simp only [bodyOf, doSwap, hnext, andThen_running _ (fy.halted.trans hs), hlast]
  | fill => exact dmaWrite_sideWrites _ (h .tgt rfl)
  | unknown v => exact ⟨_, rfl, rfl⟩

/-- A byte operation one of whose writes reaches DMA register 0 is refused (R191). -/
theorem bodyOf_refused {op : Op} (c : CmdBits) {s : State} (hs : s.halted = none)
    (h : ∃ n, writesSide op n ∧ hitsTrigger s n) : bodyOf op c s = .refused .nestedDmaStart := by
  obtain ⟨n, hw, hn⟩ := h
  have fsrc := dmaRead_frame .src s
  have ftgt := fsrc.trans (dmaRead_frame .tgt (dmaRead .src s).2)
  cases op with
  | copy =>
    obtain rfl : n = .tgt := hw
    exact dmaWrite_trigger _ ((fsrc.hitsTrigger .tgt).mpr hn)
  | mix =>
    obtain rfl : n = .tgt := hw
    exact dmaWrite_trigger _ ((ftgt.hitsTrigger .tgt).mpr hn)
  | fill =>
    obtain rfl : n = .tgt := hw
    exact dmaWrite_trigger _ hn
  | unknown v => cases hw
  | swap =>
    by_cases hsrc : hitsTrigger s .src
    · simp only [bodyOf, doSwap, dmaWrite_trigger _ ((ftgt.hitsTrigger .src).mpr hsrc), andThen_refused]
    · have htgt : hitsTrigger s .tgt := by cases n with
        | src => exact absurd hn hsrc
        | tgt => exact hn
      obtain ⟨y, -, hnext⟩ := dmaWrite_sideWrites (dmaRead .tgt (dmaRead .src s).2).1
        (mt (ftgt.hitsTrigger .src).mp hsrc)
      have fy := ftgt.trans (dmaWrite_frame hnext)
      simp only [bodyOf, doSwap, hnext, andThen_running _ (fy.halted.trans hs),
        dmaWrite_trigger _ ((fy.hitsTrigger .tgt).mpr htgt)]

/-! ### What the accesses of one step change -/

theorem reachPort_frame (b : Option BankPort) (v : Byte) (s : State) : AccessFrame s (reachPort b v s) := by
  cases b with
  | none => exact .rfl
  | some b => constructor <;> rfl

/-- A read changes the log, the trace and the draw counter at most (R63, R65). -/
theorem sideReads_quiet {s t : State} {n : SideName} {v : Byte} (h : sideReads s n v t) :
    t = { s with log := t.log, ioTrace := t.ioTrace, draws := t.draws } := by
  obtain ⟨-, a, -, ⟨i, -, -, rfl⟩ | ⟨-, -, -, rfl⟩ | ⟨-, -, rfl⟩⟩ | ⟨-, -, rfl⟩ := h <;> rfl

theorem sideReads_frame {s t : State} {n : SideName} {v : Byte} (h : sideReads s n v t) : AccessFrame s t := by
  rw [sideReads_quiet h]
  constructor <;> rfl

theorem sideWrites_frame {s t : State} {n : SideName} {v : Byte} (h : sideWrites s n v t) : AccessFrame s t := by
  obtain ⟨-, a, -, u, rfl, ⟨-, rfl⟩ | ⟨-, rfl⟩ | ⟨-, rfl⟩ | ⟨-, -, rfl⟩ | ⟨-, -, rfl⟩⟩ | ⟨-, m, -, rfl⟩ := h
  case inl.inr.inr.inr.inr => exact (AccessFrame.pushIo s _).trans (reachPort_frame _ _ _)
  case inr => exact (AccessFrame.setPhys s m).trans (reachPort_frame _ _ _)
  all_goals constructor <;> rfl

/-- A property that reads, writes of the sides the command writes, and log events keep holds after the accesses of a step
(R210 to R214). -/
theorem stepAccesses_preserves {P : State → Prop} {op : Op} {c : CmdBits} {s t : State}
    (hread : ∀ x y n v, P x → sideReads x n v y → P y)
    (hwrite : ∀ x y n v, writesSide op n → P x → sideWrites x n v y → P y)
    (hlog : ∀ x e, P x → P (x.pushLog e)) (hs : P s) (h : stepAccesses op c s t) : P t := by
  cases op with
  | copy =>
    obtain ⟨v, u, hr, hw⟩ := h
    exact hwrite _ _ _ _ rfl (hread _ _ _ _ hs hr) hw
  | mix =>
    obtain ⟨v, w, u, x, hr, hq, hw⟩ := h
    exact hwrite _ _ _ _ rfl (hread _ _ _ _ (hread _ _ _ _ hs hr) hq) hw
  | swap =>
    obtain ⟨v, w, u, x, y, hr, hq, hw, hz⟩ := h
    exact hwrite _ _ _ _ trivial (hwrite _ _ _ _ trivial (hread _ _ _ _ (hread _ _ _ _ hs hr) hq) hw) hz
  | fill => exact hwrite _ _ _ _ rfl hs h
  | unknown v =>
    obtain rfl : t = s.pushLog (.unknownDmaCommand v) := h
    exact hlog _ _ hs

/-- BankConfig, the table and DMA registers 1 and 2 are the same. -/
structure SameBanking (s t : State) : Prop where
  cfg : t.cfg = s.cfg
  tt : t.tt = s.tt
  dreg1 : t.dreg1 = s.dreg1
  dreg2 : t.dreg2 = s.dreg2

/-- A write of a memory side that no port is bound to stores a byte at most (R62, R65). -/
theorem sideWrites_sameBanking {s t : State} {n : SideName} {v : Byte} (hio : (sideOf s n).io = false)
    (hb : memBindingAt s.params (cursorAddr s n) = none) (h : sideWrites s n v t) : SameBanking s t := by
  obtain ⟨hio', -⟩ | ⟨-, m, -, rfl⟩ := h
  · simp [hio] at hio'
  · rw [hb]
    exact ⟨rfl, rfl, rfl, rfl⟩

/-- A step whose written sides are unbound memory leaves BankConfig, the table and registers 1 and 2 alone (R188). -/
theorem stepAccesses_sameBanking {op : Op} {c : CmdBits} {s t : State}
    (hmem : ∀ n, writesSide op n → (sideOf s n).io = false ∧ memBindingAt s.params (cursorAddr s n) = none)
    (h : stepAccesses op c s t) : SameBanking s t := by
  refine (stepAccesses_preserves (P := fun x => AccessFrame s x ∧ SameBanking s x) ?_ ?_ ?_
    ⟨.rfl, rfl, rfl, rfl, rfl⟩ h).2
  · rintro x y n v ⟨f, hcfg, htt, h1, h2⟩ hr
    refine ⟨f.trans (sideReads_frame hr), ?_⟩
    rw [sideReads_quiet hr]
    exact ⟨hcfg, htt, h1, h2⟩
  · rintro x y n v hn ⟨f, hcfg, htt, h1, h2⟩ hw
    obtain ⟨hio, hb⟩ := hmem n hn
    have k := sideWrites_sameBanking (by rwa [f.sideOf]) (by rwa [f.params, f.cursorAddr]) hw
    exact ⟨f.trans (sideWrites_frame hw), k.cfg.trans hcfg, k.tt.trans htt, k.dreg1.trans h1, k.dreg2.trans h2⟩
  · rintro x e ⟨f, hcfg, htt, h1, h2⟩
    exact ⟨f.trans (.pushLog x e), hcfg, htt, h1, h2⟩

/-- A write changes no byte but the one at the cursor of a memory side (R62, R65). -/
theorem physRead_sideWrites {s t : State} {n : SideName} {v : Byte} {a : Nat}
    (ha : (sideOf s n).io = false → wrapPhys s.params a ≠ cursorAddr s n) (h : sideWrites s n v t) :
    physRead t a = physRead s a := by
  have hparams := (sideWrites_frame h).params
  obtain ⟨-, b, -, hw⟩ | ⟨hio, m, hm, rfl⟩ := h
  · exact physRead_congr hparams (ioWrites_phys hw) a
  · have hsame : Memory.read m (wrapPhys s.params a) = Memory.read s.phys (wrapPhys s.params a) := by
      rw [hm, if_neg (fun k => ha hio k.1)]
    simp only [physRead, reachPort_params, reachPort_phys, hsame]

/-- A step changes no byte but those at the cursors of the memory sides it writes (R188). -/
theorem physRead_stepAccesses {op : Op} {c : CmdBits} {s t : State} {a : Nat}
    (ha : ∀ n, writesSide op n → (sideOf s n).io = false → wrapPhys s.params a ≠ cursorAddr s n)
    (h : stepAccesses op c s t) : physRead t a = physRead s a := by
  refine (stepAccesses_preserves (P := fun x => AccessFrame s x ∧ physRead x a = physRead s a) ?_ ?_ ?_
    ⟨.rfl, rfl⟩ h).2
  · rintro x y n v ⟨f, hx⟩ hr
    refine ⟨f.trans (sideReads_frame hr), ?_⟩
    rw [sideReads_quiet hr]
    exact hx
  · rintro x y n v hn ⟨f, hx⟩ hw
    refine ⟨f.trans (sideWrites_frame hw), (physRead_sideWrites ?_ hw).trans hx⟩
    rw [f.sideOf, f.params, f.cursorAddr]
    exact ha n hn
  · rintro x e ⟨f, hx⟩
    exact ⟨f.trans (.pushLog x e), hx⟩

/-! ### The whole step -/

/-- What the tail writes, and what it leaves alone (R188): the cursors and `remaining`, and of the rest the flags and phase
at most. -/
theorem executeTail_eq (c : CmdBits) (s : State) :
    executeTail c s = { s with
      srcCur := s.srcCur + stepAmount s.cur.src.step
      tgtCur := s.tgtCur + stepAmount s.cur.tgt.step
      remaining := s.remaining - 1
      busy := (executeTail c s).busy
      chainCont := (executeTail c s).chainCont
      phase := (executeTail c s).phase } := by
  obtain ⟨-, h⟩ | ⟨hlast, -, h⟩ | ⟨hlast, -, h⟩ := executeTail_cases c s <;> rw [h, advance_eq, advance_eq]
  · rw [hlast]
  · rw [hlast]

/-- An access followed by the tail keeps the frame of an Execute step (R188). -/
theorem AccessFrame.executeTail {s u : State} (f : AccessFrame s u) (c : CmdBits) :
    ExecuteFrame s (executeTail c u) := by
  rw [executeTail_eq]
  exact ⟨f.params, f.dreg0, f.lp, f.cur, f.iterCount, f.halted, f.result, f.inputs, f.credit⟩

/-- Settles O43: the byte operation is refused or completes with its accesses, and the tail follows. -/
theorem commandsCompleteOrNest : Obligations.CommandsCompleteOrNest := by
  unfold Obligations.CommandsCompleteOrNest
  intro s op c hrun
  refine ⟨fun h => ?_, fun h => ?_⟩
  · rw [exec_cmdInstr, whenRunning_running _ hrun, executeOp_eq, executeWith, bodyOf_refused c hrun h, andThen_refused]
  · obtain ⟨u, hacc, hbody⟩ := bodyOf_completes c hrun h
    have f := bodyOf_frame hbody
    have hexec : exec (cmdInstr op c) s = .next (executeTail c u) := by
      rw [exec_cmdInstr, whenRunning_running _ hrun]
      exact (executeOp_next hrun).mpr ⟨u, hbody, rfl⟩
    refine ⟨_, hexec, f.executeTail c, fun hleft => ⟨u, hacc, executeTail_eq_afterByte c (by rwa [f.remaining])⟩, ?_⟩
    obtain ⟨hparams, hphys⟩ := executeTail_store c u
    have hfields := executeTail_eq c u
    refine ⟨?_, ?_, ?_, fun hmem => ?_, fun a ha => ?_⟩
    · rw [hfields, ← f.srcCur, ← f.cur]
    · rw [hfields, ← f.tgtCur, ← f.cur]
    · rw [hfields, ← f.remaining]
    · obtain ⟨hcfg, htt, h1, h2⟩ := stepAccesses_sameBanking hmem hacc
      rw [hfields]
      exact ⟨hcfg, htt, h1, h2⟩
    · exact (physRead_congr hparams hphys a).trans (physRead_stepAccesses ha hacc)

end Sys2Proof.Machine
end

section
/-! PROOFS. Drains and triggers: a drain is that many calls (R182, R190), and with the calls the ceiling allows and one
more it ends in a refusal, at the end of a chain or in F2 (R186, R191). -/

namespace Sys2Proof.Machine

/-! ### A drain -/

/-- A call of a running engine is refused as a nested trigger, or answers a next state (R191). -/
theorem engineStep_refused_or_next {s : State} (hrun : s.halted = none) :
    engineStep s = .refused .nestedDmaStart ∨ ∃ t, engineStep s = .next t := by
  cases hbusy : s.busy with
  | false => exact .inr ⟨s, engineStep_idle hbusy⟩
  | true =>
    by_cases hlt : s.iterCount < s.params.dmaMaxIterations
    · cases hphase : s.phase with
      | fetch => exact .inr ⟨_, engineStep_fetch hbusy hlt hphase⟩
      | execute =>
        have hcounted : (s.setIter (s.iterCount + 1)).halted = none := hrun
        obtain ⟨hrefused, hcompletes⟩ := commandsCompleteOrNest (s.setIter (s.iterCount + 1)) (currentOp s)
          (cmdBitsOf s.cur.command) hcounted
        rw [engineStep_execute hbusy hlt hphase, executeStep_eq_exec hcounted, decodeCmd_eq]
        by_cases hnest : ∃ n, writesSide (currentOp s) n ∧ hitsTrigger (s.setIter (s.iterCount + 1)) n
        · exact .inl (hrefused hnest)
        · obtain ⟨t, ht, -⟩ := hcompletes fun n hw hn => hnest ⟨n, hw, hn⟩
          exact .inr ⟨t, ht⟩
    · exact .inr ⟨_, engineStep_ceiling hbusy (Nat.not_lt.mp hlt)⟩

/-- A drain is its number of calls: those after the end of the chain do nothing (R182, R190). -/
theorem drain_eq_engineCalls (n : Nat) (s : State) (hrun : s.halted = none) : drain n s = engineCalls n s := by
  induction n generalizing s with
  | zero => rfl
  | succ n ih =>
    cases hbusy : s.busy with
    | false =>
      rw [engineCalls_idle _ hrun hbusy]
      simp [drain, hbusy]
    | true =>
      have hdrain : drain (n + 1) s = andThen (engineStep s) (drain n) := by simp [drain, hbusy]
      rw [hdrain, engineCalls, exec_dmaStep_running hrun]
      obtain h | ⟨t, h⟩ := engineStep_refused_or_next hrun <;> rw [h]
      · rfl
      · cases ht : t.halted with
        | none => rw [andThen_running _ ht, andThen_running _ ht, ih t ht]
        | some f => simp [andThen, ht]

/-- The calls the ceiling allows a busy engine, and one more, end in a refusal, at the end of a chain, or in F2 (R186,
R191). -/
theorem engineCalls_ends (n : Nat) (s : State) (hrun : s.halted = none) (hbusy : s.busy = true)
    (hn : s.params.dmaMaxIterations < s.iterCount + n) (hpos : 0 < n) :
    engineCalls n s = .refused .nestedDmaStart ∨ ∃ t, engineCalls n s = .next t ∧ (ChainOver t ∨ RanAway t) := by
  induction n generalizing s with
  | zero => omega
  | succ n ih =>
    have hfirst := exec_dmaStep_running hrun
    obtain h | ⟨u, h⟩ := engineStep_refused_or_next hrun
    · exact .inl (by rw [engineCalls, hfirst, h, andThen_refused])
    · rw [h] at hfirst
      have hmax : u.params.dmaMaxIterations = s.params.dmaMaxIterations := by rw [exec_params hfirst]
      obtain ⟨-, haway⟩ | ⟨hlt, hu, hcount, hstill | hover⟩ := engineStep_busy hrun hbusy h
      · have ⟨_, hhalted, _⟩ := haway
        refine .inr ⟨u, ?_, .inr haway⟩
        rw [engineCalls, hfirst]
        simp [andThen, hhalted]
      · rw [engineCalls_succ n hfirst hu]
        exact ih u hu hstill (by omega) (by omega)
      · have ⟨⟨hidle, _⟩, _⟩ := hover
        refine .inr ⟨u, ?_, .inl hover⟩
        rw [engineCalls_succ n hfirst hu, engineCalls_idle n hu hidle]

/-- A drain of a busy engine ends (R182, R186). -/
theorem drain_ends {s : State} (hrun : s.halted = none) (hbusy : s.busy = true) :
    drain (drainFuel s) s = .refused .nestedDmaStart
    ∨ ∃ t, drain (drainFuel s) s = .next t ∧ t.params = s.params ∧ (ChainOver t ∨ RanAway t) := by
  rw [drain_eq_engineCalls _ s hrun]
  obtain h | ⟨t, h, hends⟩ := engineCalls_ends (drainFuel s) s hrun hbusy (by rw [drainFuel]; omega) (Nat.succ_pos _)
  · exact .inl h
  · exact .inr ⟨t, h, engineCalls_params _ s t h, hends⟩

/-! ### The trigger under each policy -/

/-- Under DRAIN an armed engine is run to its end (R182, R190). -/
theorem runArmed_drain {s : State} (h : s.params.dmaPolicy = .drain) : runArmed s = drain (drainFuel s) s := by
  simp only [runArmed, h]

/-- The drain of a prior chain is refused, ends idle, or runs away (R182, R183). -/
theorem drainPrior_ends {s : State} (hrun : s.halted = none) :
    drainPrior s = .refused .nestedDmaStart
    ∨ ∃ t, drainPrior s = .next t ∧ t.params = s.params ∧ (chainEnded t ∨ RanAway t) := by
  cases hbusy : s.busy with
  | false => exact .inr ⟨s, by simp [drainPrior, hbusy], rfl, .inl ⟨hbusy, hrun⟩⟩
  | true =>
    have hprior : drainPrior s
        = drain (drainFuel (s.pushLog .retriggerWhileBusy)) (s.pushLog .retriggerWhileBusy) := by
      simp [drainPrior, hbusy, drainFuel]
    rw [hprior]
    obtain h | ⟨t, h, hparams, hends⟩ := drain_ends (s := s.pushLog .retriggerWhileBusy) hrun hbusy
    · exact .inl h
    · exact .inr ⟨t, h, hparams, hends.imp_left And.left⟩

/-- Settles O27: the drain of the prior chain and that of the new one each end, and the new one starts busy. -/
theorem drainedTriggerEnds : Obligations.DrainedTriggerEnds := by
  unfold Obligations.DrainedTriggerEnds
  intro s v hrun hbase hpol
  rw [exec_trigger v hrun hbase]
  obtain h | ⟨u, h, hparams, hends⟩ := drainPrior_ends (s := s.setDreg0 v) hrun <;> rw [h]
  · exact .inl rfl
  · have hparams : u.params = s.params := hparams
    obtain ⟨-, hu⟩ | haway := hends
    · rw [andThen_running _ hu]
      have harmed : (armEngine (listAddress (s.setDreg0 v)) u).params = s.params := hparams
      rw [runArmed_drain (by rw [harmed, hpol])]
      obtain h | ⟨t, h, ht, hends⟩ := drain_ends (s := armEngine (listAddress (s.setDreg0 v)) u) hu rfl
      · exact .inl h
      · rw [harmed] at ht
        refine .inr ⟨t, h, hends.imp id ?_⟩
        rintro ⟨hbusy, hhalted, hceil⟩
        exact ⟨hbusy, hhalted, ht ▸ hceil⟩
    · obtain ⟨hbusy, hhalted, hceil⟩ := haway
      refine .inr ⟨u, ?_, .inr ⟨hbusy, hhalted, hparams ▸ hceil⟩⟩
      simp [andThen, hhalted]

/-- Settles O29: the trigger is the drain of the prior chain from the state that has stored the byte and logged the event,
then the arming. -/
theorem retriggerDrainsFirst : Obligations.RetriggerDrainsFirst := by
  unfold Obligations.RetriggerDrainsFirst
  intro s v k hrun hbase hbusy hpol
  refine ⟨_, rfl, ?_⟩
  generalize hprior : ({ s with dreg0 := v, log := .retriggerWhileBusy :: s.log } : State) = p
  have hp : p.halted = none ∧ p.busy = true ∧ p.params = s.params ∧ p.iterCount = s.iterCount := by
    subst hprior
    exact ⟨hrun, hbusy, rfl, rfl⟩
  obtain ⟨hprun, hpbusy, hpparams, hpiter⟩ := hp
  have hexec : exec (.dmaRegWriteListLo v) s
      = andThen (engineCalls (s.params.dmaMaxIterations - s.iterCount + 1) p)
          (fun u => runArmed (armEngine (listAddress (s.setDreg0 v)) u)) := by
    rw [exec_trigger v hrun hbase, ← drain_eq_engineCalls _ p hprun, ← hprior]
    simp [drainPrior, hbusy, drainFuel, State.setDreg0, State.pushLog]
  have hends := engineCalls_ends (s.params.dmaMaxIterations - s.iterCount + 1) p hprun hpbusy
    (by rw [hpparams, hpiter]; omega) (Nat.succ_pos _)
  rw [hexec]
  refine ⟨fun r h => by rw [h, andThen_refused], fun u h => ⟨fun hu => ?_, fun hu => ?_⟩⟩
  · rw [h]
    exact andThen_next.mpr ⟨u, rfl, .inr ⟨hu, rfl⟩⟩
  · have hparams : u.params = s.params := (engineCalls_params _ _ _ h).trans hpparams
    rw [h, andThen_running _ hu, armEngine_listAddress v (by rw [hparams, hbase])]
    refine ⟨?_, runArmed_interleaved (hparams ▸ hpol)⟩
    obtain hno | ⟨t, ht, hover | ⟨-, hhalted, -⟩⟩ := hends
    · simp [hno] at h
    · obtain ⟨⟨hidle, -⟩, -⟩ := hover
      cases h.symm.trans ht
      exact hidle
    · cases h.symm.trans ht
      simp [hu] at hhalted

end Sys2Proof.Machine
end

section
/-! PROOFS. The driving policy beside the engine: an engine call commutes with a replacement of `DMA_POLICY`, so a trigger
ends alike under DRAIN and INTERLEAVED (R190, R75). -/

namespace Sys2Proof.Machine

/-- The driving policy replaced. -/
def withPolicy (q : Policy) (s : State) : State := { s with params := { s.params with dmaPolicy := q } }

/-- A sequence commutes with a change of state that keeps the halt latch, when its second part does where it runs. -/
theorem andThen_mapNext {f : State → State} {o : Out} {k : State → Out} (hf : ∀ t, (f t).halted = t.halted)
    (hk : ∀ t, o = .next t → k (f t) = mapNext f (k t)) : andThen (mapNext f o) k = mapNext f (andThen o k) := by
  cases o with
  | next t =>
    cases hrun : t.halted with
    | none =>
      have hfrun : (f t).halted = none := (hf t).trans hrun
      rw [mapNext, andThen_running _ hfrun, andThen_running _ hrun, hk t rfl]
    | some e =>
      have hfhalt : (f t).halted = some e := (hf t).trans hrun
      simp [mapNext, andThen, hrun, hfhalt]
  | fault e => rfl
  | refused r => rfl

section
variable (q : Policy) (s : State)

/-! ### What reads no policy -/

@[simp] theorem withPolicy_halted : (withPolicy q s).halted = s.halted := rfl
@[simp] theorem withPolicy_cursorOf (n : SideName) : cursorOf (withPolicy q s) n = cursorOf s n := by cases n <;> rfl
@[simp] theorem withPolicy_sideOf (n : SideName) : sideOf (withPolicy q s) n = sideOf s n := by cases n <;> rfl
@[simp] theorem withPolicy_physRead (pa : Nat) : physRead (withPolicy q s) pa = physRead s pa := rfl
@[simp] theorem withPolicy_regIndex (a : CpuAddr) : regIndex (withPolicy q s).params a = regIndex s.params a := rfl
@[simp] theorem withPolicy_bindingAt (a : CpuAddr) : bindingAt (withPolicy q s).params a = bindingAt s.params a := rfl
@[simp] theorem withPolicy_unimplementedAt (a : CpuAddr) :
    unimplementedAt (withPolicy q s).params a = unimplementedAt s.params a := rfl
@[simp] theorem withPolicy_memBindingAt (a : Nat) :
    memBindingAt (withPolicy q s).params a = memBindingAt s.params a := rfl

/-! ### Accesses -/

theorem portWrite_withPolicy (b : BankPort) (v : Byte) :
    portWrite b v (withPolicy q s) = withPolicy q (portWrite b v s) := by
  cases b <;> rfl

theorem physWrite_withPolicy (pa : Nat) (v : Byte) :
    physWrite pa v (withPolicy q s) = withPolicy q (physWrite pa v s) := by
  cases h : writableAt s.params (wrapPhys s.params pa) with
  | true =>
    rw [physWrite, physWrite, if_pos h]
    exact if_pos h
  | false => rw [physWrite_discarded pa v s h, physWrite_discarded pa v (withPolicy q s) h]

theorem memStore_withPolicy (pa : Nat) (v : Byte) :
    memStore pa v (withPolicy q s) = withPolicy q (memStore pa v s) := by
  have hwrap : wrapPhys (withPolicy q s).params pa = wrapPhys s.params pa := rfl
  cases h : memBindingAt s.params (wrapPhys s.params pa) with
  | some b => simp [memStore, hwrap, h, physWrite_withPolicy, portWrite_withPolicy]
  | none => simp [memStore, hwrap, h, physWrite_withPolicy]

theorem ioRead_withPolicy (a : CpuAddr) :
    ioRead a (withPolicy q s) = ((ioRead a s).1, withPolicy q (ioRead a s).2) := by
  cases h : regIndex s.params a with
  | some i => simp only [ioRead, withPolicy_regIndex, h]; rfl
  | none =>
    cases k : unimplementedAt s.params a with
    | true => simp only [ioRead, withPolicy_regIndex, withPolicy_unimplementedAt, h, k]; rfl
    | false => simp only [ioRead, withPolicy_regIndex, withPolicy_unimplementedAt, h, k]; rfl

theorem dmaRead_withPolicy (n : SideName) :
    dmaRead n (withPolicy q s) = ((dmaRead n s).1, withPolicy q (dmaRead n s).2) := by
  cases h : (sideOf s n).io with
  | true => simp [dmaRead, h, ioRead_withPolicy]
  | false => simp [dmaRead, h]

theorem ioWriteOther_withPolicy (a : CpuAddr) (v : Byte) :
    ioWriteOther a v (withPolicy q s) = withPolicy q (ioWriteOther a v s) := by
  cases h : bindingAt s.params a with
  | some b => simp [ioWriteOther, h, portWrite_withPolicy]
  | none =>
    cases k : unimplementedAt s.params a with
    | true => simp only [ioWriteOther, withPolicy_bindingAt, withPolicy_unimplementedAt, h, k]; rfl
    | false => simp [ioWriteOther, h, k]

theorem ioWriteEngine_withPolicy (a : CpuAddr) (v : Byte) :
    ioWriteEngine a v (withPolicy q s) = mapNext (withPolicy q) (ioWriteEngine a v s) := by
  cases h : regIndex s.params a with
  | none =>
    have hother := ioWriteOther_withPolicy q (s.pushIo (.write a v)) a v
    simp only [ioWriteEngine, withPolicy_regIndex, h, mapNext, ← hother]
    rfl
  | some i =>
    obtain rfl | rfl | rfl | rfl := regIndex_values i <;> simp only [ioWriteEngine, withPolicy_regIndex, h] <;> rfl

theorem dmaWrite_withPolicy (n : SideName) (v : Byte) :
    dmaWrite n v (withPolicy q s) = mapNext (withPolicy q) (dmaWrite n v s) := by
  cases h : (sideOf s n).io with
  | true => simp [dmaWrite, h, ioWriteEngine_withPolicy]
  | false => simp [dmaWrite, h, memStore_withPolicy, mapNext]

/-! ### Calls -/

/-- The byte operation of every command commutes with the replacement (R210 to R214). -/
theorem bodyOf_withPolicy (op : Op) (c : CmdBits) :
    bodyOf op c (withPolicy q s) = mapNext (withPolicy q) (bodyOf op c s) := by
  cases op with
  | copy => simp only [bodyOf, doCopy, dmaRead_withPolicy, dmaWrite_withPolicy]
  | mix => simp only [bodyOf, doMix, dmaRead_withPolicy, dmaWrite_withPolicy]
  | swap =>
    simp only [bodyOf, doSwap, dmaRead_withPolicy, dmaWrite_withPolicy]
    exact andThen_mapNext (withPolicy_halted q) fun t _ => dmaWrite_withPolicy q t _ _
  | fill => exact dmaWrite_withPolicy q s _ _
  | unknown v => rfl

theorem executeTail_withPolicy (c : CmdBits) :
    executeTail c (withPolicy q s) = withPolicy q (executeTail c s) := by
  by_cases h : s.remaining - 1 = 0
  · cases hc : c.chain with
    | true => simp [executeTail, complete, withPolicy, State.setCursors, State.setRemaining, State.setFlags, h, hc]
    | false => simp [executeTail, complete, withPolicy, State.setCursors, State.setRemaining, State.setFlags, h, hc]
  · simp [executeTail, withPolicy, State.setCursors, State.setRemaining, h]

theorem engineStep_withPolicy : engineStep (withPolicy q s) = mapNext (withPolicy q) (engineStep s) := by
  cases hbusy : s.busy with
  | false => rw [engineStep_idle hbusy, engineStep_idle (s := withPolicy q s) hbusy, mapNext]
  | true =>
    by_cases hlt : s.iterCount < s.params.dmaMaxIterations
    · cases hphase : s.phase with
      | fetch =>
        rw [engineStep_fetch hbusy hlt hphase, engineStep_fetch (s := withPolicy q s) hbusy hlt hphase]
        rfl
      | execute =>
        rw [engineStep_execute hbusy hlt hphase, engineStep_execute (s := withPolicy q s) hbusy hlt hphase,
          executeStep, executeStep, executeOp_eq, executeOp_eq, executeWith, executeWith]
        refine (congrArg (andThen · _) (bodyOf_withPolicy q (s.setIter (s.iterCount + 1)) _ _)).trans ?_
        exact andThen_mapNext (withPolicy_halted q) fun t _ => congrArg _ (executeTail_withPolicy q t _)
    · have hceil := Nat.not_lt.mp hlt
      rw [engineStep_ceiling hbusy hceil, engineStep_ceiling (s := withPolicy q s) hbusy hceil]
      rfl

/-- Any number of calls commutes with the replacement: the engine does not read who drives it (R190). -/
theorem engineCalls_withPolicy (n : Nat) (hrun : s.halted = none) :
    engineCalls n (withPolicy q s) = mapNext (withPolicy q) (engineCalls n s) := by
  induction n generalizing s with
  | zero => rfl
  | succ n ih =>
    rw [engineCalls, engineCalls, exec_dmaStep_running hrun, exec_dmaStep_running (s := withPolicy q s) hrun,
      engineStep_withPolicy]
    obtain h | ⟨t, h⟩ := engineStep_refused_or_next hrun <;> rw [h]
    · rfl
    · cases ht : t.halted with
      | none => rw [mapNext, andThen_running _ ht, andThen_running (s := withPolicy q t) _ ht, ih t ht]
      | some f => simp [mapNext, andThen, ht]

end

/-- A change of state that undoes another one on every next state an outcome can be. -/
theorem mapNext_mapNext_cancel {f g : State → State} {o : Out} (h : ∀ t, o = .next t → g (f t) = t) :
    mapNext g (mapNext f o) = o := by
  cases o with
  | next t => exact congrArg _ (h t rfl)
  | fault e => rfl
  | refused r => rfl

/-- Settles O49: both policies arm the same state but for the policy itself, which no call reads. -/
theorem drainEqualsInterleaved : Obligations.DrainEqualsInterleaved := by
  unfold Obligations.DrainEqualsInterleaved
  intro s v k hrun hidle hbase hpol
  refine ⟨withPolicy (.interleaved k) (triggered v s), ?_, ?_⟩
  · change exec (.dmaRegWriteListLo v) (withPolicy (.interleaved k) s) = _
    rw [exec_trigger_idle (s := withPolicy (.interleaved k) s) v hrun hbase hidle, runArmed_interleaved rfl]
    rfl
  · have harmed : (triggered v s).halted = none := hrun
    rw [exec_trigger_idle v hrun hbase hidle, runArmed_drain (s := triggered v s) hpol,
      drain_eq_engineCalls _ _ harmed, engineCalls_withPolicy _ _ _ harmed, mapNext_mapNext_cancel]
    · rfl
    · intro t ht
      have hparams : t.params = s.params := engineCalls_params _ (triggered v s) t ht
      rw [← hparams]
      rfl

end Sys2Proof.Machine
end

section
/-! PROOFS. The bytes of one descriptor between memory sides, as pure data: what a number of byte operations leaves at each
address, and the transfer of each command read off it (R210 to R215). -/

namespace Sys2Proof.Machine

/-! ### Byte operations on the readable bytes -/

/-- The byte at each address after a write of `v` to the reduced address `y` (R62). -/
def storeByte (p : Params) (y : Nat) (v : Byte) (f : Nat → Byte) : Nat → Byte :=
  fun a => if wrapPhys p a = y ∧ writableAt p y = true then v else f a

/-- The byte at each address after one byte operation with source byte `x` and target byte `y` (R210 to R214). -/
def byteEffect (p : Params) (op : Op) (c : CmdBits) (fill : Byte) (x y : Nat) (f : Nat → Byte) : Nat → Byte :=
  match op with
  | .copy => storeByte p y (f x) f
  | .mix => storeByte p y (mixByte c (f x) (f y)) f
  | .swap => storeByte p y (f x) (storeByte p x (f y) f)
  | .fill => storeByte p y fill f
  | .unknown _ => f

/-- A transfer between memory: its command, FILL's constant, and the reduced addresses of its byte operations. -/
structure Transfer where
  params : Params
  op : Op
  bits : CmdBits
  fill : Byte
  src : Nat → Nat
  tgt : Nat → Nat

/-- The bytes after the first `k` byte operations of a transfer. -/
def Transfer.bytes (T : Transfer) (f : Nat → Byte) : Nat → Nat → Byte
  | 0 => f
  | k + 1 => byteEffect T.params T.op T.bits T.fill (T.src k) (T.tgt k) (T.bytes f k)

theorem Transfer.bytes_succ (T : Transfer) (f : Nat → Byte) (k : Nat) : T.bytes f (k + 1)
    = byteEffect T.params T.op T.bits T.fill (T.src k) (T.tgt k) (T.bytes f k) := rfl

theorem storeByte_other {p : Params} {y a : Nat} (v : Byte) (f : Nat → Byte)
    (h : y = wrapPhys p a → writableAt p y = false) : storeByte p y v f a = f a := by
  refine if_neg ?_
  rintro ⟨hy, hw⟩
  simp [h hy.symm] at hw

theorem storeByte_same {p : Params} {y : Nat} (v : Byte) (f : Nat → Byte) (hy : wrapPhys p y = y)
    (hw : writableAt p y = true) : storeByte p y v f y = v := if_pos ⟨hy, hw⟩

/-- A byte operation leaves every byte it does not write (R210 to R213). -/
theorem byteEffect_other {p : Params} {op : Op} {c : CmdBits} {fill : Byte} {x y a : Nat} {f : Nat → Byte}
    (ht : writesSide op .tgt → y = wrapPhys p a → writableAt p y = false)
    (hs : writesSide op .src → x = wrapPhys p a → writableAt p x = false) :
    byteEffect p op c fill x y f a = f a := by
  cases op with
  | copy | mix | fill => exact storeByte_other _ f (ht rfl)
  | swap => exact (storeByte_other _ _ (ht trivial)).trans (storeByte_other _ f (hs trivial))
  | unknown v => rfl

/-- A byte that no operation from the `m`-th to the `n`-th writes. -/
theorem Transfer.bytes_unwritten (T : Transfer) (f : Nat → Byte) {a m n : Nat} (hmn : m ≤ n)
    (h : ∀ k, m ≤ k → k < n →
      (writesSide T.op .tgt → T.tgt k = wrapPhys T.params a → writableAt T.params (T.tgt k) = false)
      ∧ (writesSide T.op .src → T.src k = wrapPhys T.params a → writableAt T.params (T.src k) = false)) :
    T.bytes f n a = T.bytes f m a := by
  induction n, hmn using Nat.le_induction with
  | base => rfl
  | succ n hmn ih =>
    obtain ⟨ht, hs⟩ := h n hmn n.lt_succ_self
    rw [T.bytes_succ, byteEffect_other ht hs]
    exact ih fun k hmk hkn => h k hmk (hkn.trans n.lt_succ_self)

/-- A byte at an address that no operation from the `m`-th to the `n`-th uses on a side it writes. -/
theorem Transfer.bytes_unused (T : Transfer) (f : Nat → Byte) {a m n : Nat} (ha : wrapPhys T.params a = a) (hmn : m ≤ n)
    (ht : writesSide T.op .tgt → ∀ k, m ≤ k → k < n → T.tgt k ≠ a)
    (hs : writesSide T.op .src → ∀ k, m ≤ k → k < n → T.src k ≠ a) : T.bytes f n a = T.bytes f m a := by
  refine T.bytes_unwritten f hmn fun k hmk hkn => ⟨fun hw hk => ?_, fun hw hk => ?_⟩
  · exact absurd (hk.trans ha) (ht hw k hmk hkn)
  · exact absurd (hk.trans ha) (hs hw k hmk hkn)

/-! ### The transfer of each command -/

/-- The addresses of a transfer are reduced. -/
def Transfer.Reduced (T : Transfer) : Prop :=
  ∀ k, wrapPhys T.params (T.src k) = T.src k ∧ wrapPhys T.params (T.tgt k) = T.tgt k

section
variable {T : Transfer} {n : Nat} (f : Nat → Byte) (hred : T.Reduced)
include hred

/-- FILL writes its constant to every writable target byte (R213, R215). -/
theorem Transfer.bytes_fill (hop : T.op = .fill) {k : Nat} (hk : k < n) (hw : writableAt T.params (T.tgt k) = true) :
    T.bytes f n (T.tgt k) = T.fill := by
  induction n with
  | zero => omega
  | succ n ih =>
    rw [T.bytes_succ, hop]
    by_cases hsame : T.tgt n = T.tgt k
    · rw [hsame]
      exact storeByte_same _ _ (hred k).2 hw
    · have hkn : k < n := Nat.lt_of_le_of_ne (Nat.le_of_lt_succ hk) fun h => hsame (h ▸ rfl)
      refine (storeByte_other _ _ fun h => absurd (h.trans (hred k).2) hsame).trans (ih hkn)

/-- COPY between disjoint ranges: the last operation that uses a target byte stores the source's byte there (R210, R215). -/
theorem Transfer.bytes_copy (hop : T.op = .copy) (hdisj : ∀ j k, j < n → k < n → T.src j ≠ T.tgt k) {k : Nat} (hk : k < n)
    (hw : writableAt T.params (T.tgt k) = true) (hlast : ∀ j, k < j → j < n → T.tgt j ≠ T.tgt k) :
    T.bytes f n (T.tgt k) = f (T.src k) := by
  have hnosrc : ¬ writesSide T.op .src := by simp [hop, writesSide]
  have hafter := T.bytes_unused f (hred k).2 (m := k + 1) hk (fun _ j hj hjn => hlast j hj hjn) (absurd · hnosrc)
  have hbefore := T.bytes_unused f (hred k).1 (Nat.zero_le k)
    (fun _ j _ hj => (hdisj k j hk (hj.trans hk)).symm) (absurd · hnosrc)
  rw [hafter, T.bytes_succ, hop]
  exact (storeByte_same _ _ (hred k).2 hw).trans hbefore

/-- MIX between disjoint ranges of distinct target bytes (R211, R215). -/
theorem Transfer.bytes_mix (hop : T.op = .mix) (hdisj : ∀ j k, j < n → k < n → T.src j ≠ T.tgt k)
    (htgt : ∀ j k, j < k → k < n → T.tgt j ≠ T.tgt k) {k : Nat} (hk : k < n)
    (hw : writableAt T.params (T.tgt k) = true) :
    T.bytes f n (T.tgt k) = mixByte T.bits (f (T.src k)) (f (T.tgt k)) := by
  have hnosrc : ¬ writesSide T.op .src := by simp [hop, writesSide]
  have hafter := T.bytes_unused f (hred k).2 (m := k + 1) hk (fun _ j hj hjn => (htgt k j hj hjn).symm)
    (absurd · hnosrc)
  have hbefore_src := T.bytes_unused f (hred k).1 (Nat.zero_le k)
    (fun _ j _ hj => (hdisj k j hk (hj.trans hk)).symm) (absurd · hnosrc)
  have hbefore_tgt := T.bytes_unused f (hred k).2 (Nat.zero_le k) (fun _ j _ hj => htgt j k hj hk) (absurd · hnosrc)
  rw [hafter, T.bytes_succ, hop]
  refine (storeByte_same _ _ (hred k).2 hw).trans ?_
  rw [hbefore_src, hbefore_tgt]
  rfl

/-- SWAP exchanges disjoint ranges of distinct bytes, one-way where a byte is not writable (R212, R215). -/
theorem Transfer.bytes_swap (hop : T.op = .swap) (hdisj : ∀ j k, j < n → k < n → T.src j ≠ T.tgt k)
    (htgt : ∀ j k, j < k → k < n → T.tgt j ≠ T.tgt k) (hsrc : ∀ j k, j < k → k < n → T.src j ≠ T.src k) {k : Nat}
    (hk : k < n) :
    (writableAt T.params (T.tgt k) = true → T.bytes f n (T.tgt k) = f (T.src k))
    ∧ (writableAt T.params (T.src k) = true → T.bytes f n (T.src k) = f (T.tgt k)) := by
  have hafter_tgt := T.bytes_unused f (hred k).2 (m := k + 1) hk (fun _ j hj hjn => (htgt k j hj hjn).symm)
    (fun _ j _ hjn => hdisj j k hjn hk)
  have hafter_src := T.bytes_unused f (hred k).1 (m := k + 1) hk (fun _ j _ hjn => (hdisj k j hk hjn).symm)
    (fun _ j hj hjn => (hsrc k j hj hjn).symm)
  have hbefore_src := T.bytes_unused f (hred k).1 (Nat.zero_le k) (fun _ j _ hj => (hdisj k j hk (hj.trans hk)).symm)
    (fun _ j _ hj => hsrc j k hj hk)
  have hbefore_tgt := T.bytes_unused f (hred k).2 (Nat.zero_le k) (fun _ j _ hj => htgt j k hj hk)
    (fun _ j _ hj => hdisj j k (hj.trans hk) hk)
  constructor <;> intro hw
  · rw [hafter_tgt, T.bytes_succ, hop]
    exact (storeByte_same _ _ (hred k).2 hw).trans hbefore_src
  · rw [hafter_src, T.bytes_succ, hop]
    have hnot : T.tgt k = wrapPhys T.params (T.src k) → writableAt T.params (T.tgt k) = false :=
      fun h => absurd (h.trans (hred k).1).symm (hdisj k k hk hk)
    exact (storeByte_other _ _ hnot).trans ((storeByte_same _ _ (hred k).1 hw).trans hbefore_tgt)

/-- States whose readable bytes are those before and after the operations have the transfer between them (R215). -/
theorem Transfer.transferred {s t : State} (hp : T.params = s.params)
    (hbytes : physRead t = T.bytes (physRead s) n) : Transferred T.op T.bits T.fill n T.src T.tgt s t where
  filled hop k hk hw := by
    rw [← hp] at hw
    rw [hbytes, T.bytes_fill _ hred hop hk hw]
  copied hop hdisj k hk hw hlast := by
    rw [← hp] at hw
    rw [hbytes, T.bytes_copy _ hred hop hdisj hk hw hlast]
  mixed hop hdisj htgt k hk hw := by
    rw [← hp] at hw
    rw [hbytes, T.bytes_mix _ hred hop hdisj htgt hk hw]
  swapped hop hdisj htgt hsrc k hk := by
    rw [← hp, hbytes]
    exact T.bytes_swap _ hred hop hdisj htgt hsrc hk
  others a ha := by
    rw [← hp] at ha
    rw [hbytes, T.bytes_unwritten _ (Nat.zero_le n) fun k _ hk => ha k hk]
    rfl

end

end Sys2Proof.Machine
end

section
/-! PROOFS. The run of one descriptor between memory sides (R188, R215), and the drained trigger that completes inside the
ceiling (R182, R187, R189). -/

namespace Sys2Proof.Machine

/-! ### The accesses of a step between memory sides -/

/-- What an Execute step of `op` between memory sides can change, cursors, flags and counts aside: PhysicalStore, the ports
a byte is bound to, and, for UNKNOWN, the log. -/
structure MemoryStep (op : Op) (s t : State) : Prop where
  frame : t = { s with phys := t.phys, cfg := t.cfg, tt := t.tt, log := t.log }
  cfg : s.params.memBindings = [] → t.cfg = s.cfg
  tt : s.params.memBindings = [] → t.tt = s.tt
  log : (∀ v, op ≠ .unknown v) → t.log = s.log

/-- The read of a memory side answers the byte at its cursor and changes nothing (R65). -/
theorem sideReads_mem {s t : State} {n : SideName} {v : Byte} (hio : (sideOf s n).io = false) (h : sideReads s n v t) :
    v = physRead s (cursorAddr s n) ∧ t = s := by
  obtain ⟨hio', -⟩ | ⟨-, hv, ht⟩ := h
  · simp [hio] at hio'
  · exact ⟨hv, ht⟩

/-- The readable bytes after a byte was stored (R62). -/
theorem physRead_of_stored {s t : State} {pa : Nat} {v : Byte} (hp : t.params = s.params)
    (h : byteStored s pa v t.phys) : physRead t = storeByte s.params pa v (physRead s) := by
  funext a
  simp only [physRead, storeByte, hp, h (wrapPhys s.params a)]
  by_cases hsame : wrapPhys s.params a = pa ∧ writableAt s.params pa = true
  · simp only [if_pos hsame]
  · simp only [if_neg hsame]

/-- The write of a memory side stores the byte at its cursor and reaches the port bound there, if one is (R65, D12). -/
theorem sideWrites_mem {s t : State} {n : SideName} {v : Byte} (op : Op) (hio : (sideOf s n).io = false)
    (h : sideWrites s n v t) :
    physRead t = storeByte s.params (cursorAddr s n) v (physRead s) ∧ MemoryStep op s t := by
  obtain ⟨hio', -⟩ | ⟨-, m, hm, ht⟩ := h
  · simp [hio] at hio'
  · subst ht
    refine ⟨physRead_of_stored (reachPort_params ..) (by rwa [reachPort_phys]), ?_⟩
    cases hb : memBindingAt s.params (cursorAddr s n) with
    | none => exact ⟨rfl, fun _ => rfl, fun _ => rfl, fun _ => rfl⟩
    | some b =>
      have hbound (hnil : s.params.memBindings = []) : False := by simp [hnil] at hb
      exact ⟨rfl, fun hnil => (hbound hnil).elim, fun hnil => (hbound hnil).elim, fun _ => rfl⟩

theorem MemoryStep.accessFrame {op : Op} {s t : State} (h : MemoryStep op s t) : AccessFrame s t := by
  rw [h.frame]
  constructor <;> rfl

theorem MemoryStep.trans {op : Op} {s t u : State} (h : MemoryStep op s t) (k : MemoryStep op t u) :
    MemoryStep op s u where
  frame := by
    rw [k.frame, h.frame]
  cfg hnil := (k.cfg (by rwa [h.accessFrame.params])).trans (h.cfg hnil)
  tt hnil := (k.tt (by rwa [h.accessFrame.params])).trans (h.tt hnil)
  log hop := (k.log hop).trans (h.log hop)

/-- The accesses of a step between memory sides, as the byte operation on the readable bytes (R210 to R214). FILL does not
read its source side. -/
theorem stepAccesses_mem {op : Op} {c : CmdBits} {s t : State} (hsrc : op ≠ .fill → s.cur.src.io = false)
    (htgt : s.cur.tgt.io = false) (h : stepAccesses op c s t) :
    physRead t = byteEffect s.params op c (s.cur.src.addr.extractLsb' 0 8) (cursorAddr s .src) (cursorAddr s .tgt)
      (physRead s) ∧ MemoryStep op s t := by
  cases op with
  | copy =>
    obtain ⟨v, u, hr, hw⟩ := h
    obtain ⟨rfl, rfl⟩ := sideReads_mem (n := .src) (hsrc nofun) hr
    exact sideWrites_mem _ (n := .tgt) htgt hw
  | mix =>
    obtain ⟨v, w, u, x, hr, hq, hw⟩ := h
    obtain ⟨rfl, rfl⟩ := sideReads_mem (n := .src) (hsrc nofun) hr
    obtain ⟨rfl, rfl⟩ := sideReads_mem (n := .tgt) htgt hq
    exact sideWrites_mem _ (n := .tgt) htgt hw
  | swap =>
    obtain ⟨v, w, u, x, y, hr, hq, hw, hz⟩ := h
    obtain ⟨rfl, rfl⟩ := sideReads_mem (n := .src) (hsrc nofun) hr
    obtain ⟨rfl, rfl⟩ := sideReads_mem (n := .tgt) htgt hq
    obtain ⟨hsrcBytes, hfirst⟩ := sideWrites_mem .swap (n := .src) (hsrc nofun) hw
    have f := hfirst.accessFrame
    obtain ⟨htgtBytes, hsecond⟩ := sideWrites_mem .swap (n := .tgt) ((congrArg SideLatch.io (f.sideOf .tgt)).trans htgt) hz
    refine ⟨?_, hfirst.trans hsecond⟩
    rw [htgtBytes, hsrcBytes, f.params, f.cursorAddr]
    rfl
  | fill => exact sideWrites_mem _ (n := .tgt) htgt h
  | unknown v =>
    subst h
    exact ⟨rfl, rfl, fun _ => rfl, fun _ => rfl, fun hop => absurd rfl (hop v)⟩

/-! ### The run of a descriptor's bytes -/

theorem cursorAfter_zero (a : Addr20) (t : Step) : cursorAfter a t 0 = a := by
  simp [cursorAfter]

/-- A cursor after one more byte operation (R188, R215). -/
theorem cursorAfter_succ (a : Addr20) (t : Step) (k : Nat) :
    cursorAfter a t (k + 1) = cursorAfter a t k + stepAmount t := by
  simp only [cursorAfter, BitVec.ofNat_add, BitVec.add_mul, BitVec.add_assoc]
  simp

/-- The transfer of the descriptor a state is about to execute (R215). -/
def transferOf (s : State) : Transfer where
  params := s.params
  op := currentOp s
  bits := cmdBitsOf s.cur.command
  fill := s.cur.src.addr.extractLsb' 0 8
  src := sideAddr s .src
  tgt := sideAddr s .tgt

/-- What the first `k` byte operations of a descriptor between memory sides leave in every field (R188, R189, R215). -/
structure RanBytes (s : State) (k : Nat) (t : State) : Prop where
  frame : t = { s with
    phys := t.phys
    cfg := t.cfg
    tt := t.tt
    log := t.log
    srcCur := cursorAfter s.srcCur s.cur.src.step k
    tgtCur := cursorAfter s.tgtCur s.cur.tgt.step k
    remaining := s.remaining - k
    iterCount := s.iterCount + k
    busy := t.busy
    chainCont := t.chainCont
    phase := t.phase }
  cfg : s.params.memBindings = [] → t.cfg = s.cfg
  tt : s.params.memBindings = [] → t.tt = s.tt
  log : (∀ v, currentOp s ≠ .unknown v) → t.log = s.log
  bytes : physRead t = (transferOf s).bytes (physRead s) k
  active : k < s.remaining → t.busy = true ∧ t.phase = .execute
  ended : k = s.remaining → t.busy = (cmdBitsOf s.cur.command).chain
    ∧ t.chainCont = (cmdBitsOf s.cur.command).chain ∧ ((cmdBitsOf s.cur.command).chain = true → t.phase = .fetch)

/-- Before the first byte operation nothing has changed. -/
theorem RanBytes.zero {s : State} (h : ReadyToRun s (currentOp s)) : RanBytes s 0 s where
  frame := by
    rw [cursorAfter_zero, cursorAfter_zero]
    rfl
  cfg _ := rfl
  tt _ := rfl
  log _ := rfl
  bytes := rfl
  active _ := ⟨h.busy, h.execute⟩
  ended hzero := absurd h.bytesLeft (by omega)

section
variable {s t : State} {k : Nat}

theorem RanBytes.params (h : RanBytes s k t) : t.params = s.params := by rw [h.frame]
theorem RanBytes.cur (h : RanBytes s k t) : t.cur = s.cur := by rw [h.frame]
theorem RanBytes.remaining (h : RanBytes s k t) : t.remaining = s.remaining - k := by rw [h.frame]
theorem RanBytes.iterCount (h : RanBytes s k t) : t.iterCount = s.iterCount + k := by rw [h.frame]
theorem RanBytes.halted (h : RanBytes s k t) : t.halted = s.halted := by rw [h.frame]

theorem RanBytes.currentOp_eq (h : RanBytes s k t) : currentOp t = currentOp s := by
  rw [currentOp, h.params, h.cur, currentOp]

/-- The cursor address of a side after `k` byte operations (R215). -/
theorem RanBytes.cursorAddr_eq (h : RanBytes s k t) (n : SideName) : cursorAddr t n = sideAddr s n k := by
  rw [h.frame]
  cases n <;> rfl

/-- Below the ceiling a call in Execute with a byte left, no side it writes being I/O, takes the byte operation and the
tail (R185, R188). -/
theorem exec_dmaStep_byte (hrun : t.halted = none) (hbusy : t.busy = true) (hphase : t.phase = .execute)
    (hlt : t.iterCount < t.params.dmaMaxIterations) (hleft : 1 ≤ t.remaining)
    (hmem : ∀ n, writesSide (currentOp t) n → (sideOf t n).io = false) :
    ∃ u, stepAccesses (currentOp t) (cmdBitsOf t.cur.command) (t.setIter (t.iterCount + 1)) u
      ∧ exec .dmaStep t = .next (afterByte (cmdBitsOf t.cur.command).chain u.phys u) := by
  obtain ⟨-, hcompletes⟩ := commandsCompleteOrNest (t.setIter (t.iterCount + 1)) (currentOp t)
    (cmdBitsOf t.cur.command) hrun
  obtain ⟨v, hexec, -, hbytes, -⟩ := hcompletes fun n hw hn => by
    have hio : (sideOf t n).io = true := by cases n <;> exact hn.1
    simp [hmem n hw] at hio
  obtain ⟨u, hacc, rfl⟩ := hbytes hleft
  refine ⟨u, hacc, ?_⟩
  rw [dmaStepRunsLatchedCommand t _ hrun hbusy hphase hlt rfl, decodeCmd_eq]
  exact hexec

/-- One more byte operation (R188). -/
theorem RanBytes.succ (h : RanBytes s k t) (hready : ReadyToRun s (currentOp s))
    (hsrc : currentOp s ≠ .fill → s.cur.src.io = false) (htgt : s.cur.tgt.io = false) (hk : k < s.remaining) :
    ∃ u, exec .dmaStep t = .next u ∧ RanBytes s (k + 1) u := by
  have hleft := h.remaining
  have hrun : t.halted = none := h.halted.trans hready.running
  obtain ⟨hbusy, hphase⟩ := h.active hk
  have hlt : t.iterCount < t.params.dmaMaxIterations := by
    have := hready.allowed
    rw [h.iterCount, h.params]
    omega
  rw [← h.currentOp_eq, ← h.cur] at hsrc
  rw [← h.cur] at htgt
  have hmem : ∀ n, writesSide (currentOp t) n → (sideOf t n).io = false
    | .tgt, _ => htgt
    | .src, hw => hsrc fun hfill => by simp [hfill, writesSide] at hw
  obtain ⟨u, hacc, hexec⟩ := exec_dmaStep_byte hrun hbusy hphase hlt (by omega) hmem
  obtain ⟨hbytes, hstep⟩ := stepAccesses_mem (s := t.setIter (t.iterCount + 1)) hsrc htgt hacc
  have hu : u = { s with
      phys := u.phys, cfg := u.cfg, tt := u.tt, log := u.log
      srcCur := cursorAfter s.srcCur s.cur.src.step k, tgtCur := cursorAfter s.tgtCur s.cur.tgt.step k
      remaining := s.remaining - k, iterCount := s.iterCount + (k + 1)
      busy := t.busy, chainCont := t.chainCont, phase := t.phase } :=
    hstep.frame.trans (by rw [h.frame]; rfl)
  refine ⟨_, hexec, ?_, ?_, ?_, ?_, ?_, ?_, ?_⟩
  · rw [cursorAfter_succ, cursorAfter_succ, hu]
    rfl
  · exact fun hnil => (hstep.cfg (by rwa [State.setIter_params, h.params])).trans (h.cfg hnil)
  · exact fun hnil => (hstep.tt (by rwa [State.setIter_params, h.params])).trans (h.tt hnil)
  · exact fun hne => (hstep.log (by rwa [h.currentOp_eq])).trans (h.log hne)
  · have hread : physRead (afterByte (cmdBitsOf t.cur.command).chain u.phys u) = physRead u := rfl
    have hcursor (n : SideName) : cursorAddr (t.setIter (t.iterCount + 1)) n = sideAddr s n k := by
      rw [← h.cursorAddr_eq n]
      cases n <;> rfl
    rw [hread, hbytes, hcursor, hcursor, h.currentOp_eq, State.setIter_cur, h.cur, State.setIter_params, h.params,
      Transfer.bytes_succ, ← h.bytes]
    rfl
  · intro hmore
    have hnot : u.remaining ≠ 1 := by rw [hu]; simp only; omega
    have hb : u.busy = true := by rw [hu]; exact hbusy
    have hp : u.phase = .execute := by rw [hu]; exact hphase
    simp [afterByte, hnot, hb, hp]
  · intro hlast
    have hone : u.remaining = 1 := by rw [hu]; simp only; omega
    have hb : u.busy = true := by rw [hu]; exact hbusy
    rw [h.cur]
    cases hc : (cmdBitsOf s.cur.command).chain with
    | true => simp [afterByte, hone, hb]
    | false => simp [afterByte, hone]

end

/-- The calls of a descriptor's byte operations between memory sides (R185, R188, R215). -/
theorem engineCalls_ranBytes {s : State} (hready : ReadyToRun s (currentOp s))
    (hsrc : currentOp s ≠ .fill → s.cur.src.io = false) (htgt : s.cur.tgt.io = false) (k : Nat)
    (hk : k ≤ s.remaining) : ∃ t, engineCalls k s = .next t ∧ RanBytes s k t := by
  induction k with
  | zero => exact ⟨s, rfl, .zero hready⟩
  | succ k ih =>
    obtain ⟨t, hcalls, ht⟩ := ih (by omega)
    obtain ⟨u, hexec, hu⟩ := ht.succ hready hsrc htgt hk
    refine ⟨u, ?_, hu⟩
    rw [engineCalls_add 1 hready.running hcalls (ht.halted.trans hready.running),
      engineCalls_succ 0 hexec (hu.halted.trans hready.running)]
    rfl

/-! ### The drained trigger of one descriptor -/

section
variable {s : State} {d : Desc11}

/-- A state that has latched a descriptor is ready to run it when the ceiling allows its bytes (R187, R188). -/
theorem readyToRun_latchDescriptor (hrun : s.halted = none) (hbusy : s.busy = true)
    (hallowed : s.iterCount + countOf d.length ≤ s.params.dmaMaxIterations) :
    ReadyToRun (latchDescriptor d s) (currentOp (latchDescriptor d s)) := by
  rw [latchDescriptor_eq]
  exact ⟨hrun, hbusy, rfl, rfl, (countOf_pos d.length).1, hallowed⟩

/-- The address a latched side uses at its `k`-th byte operation: the slice is 0 and a cursor has 20 bits (R105, R215). -/
theorem sideAddr_of_latch {n : SideName} {a : Addr3} (hside : sideOf s n = sideLatch a) (hcursor : cursorOf s n = a.addr)
    (k : Nat) : sideAddr s n k = (cursorAfter a.addr (stepOf a) k).toNat := by
  rw [sideAddr, hside, hcursor, physAddrOf]
  exact (congrArg _ (by simp [sideLatch])).trans (wrapPhys_addr20 s.params _)

/-- The transfer of a latched descriptor (R215). -/
theorem transferOf_latchDescriptor : transferOf (latchDescriptor d s) = {
    params := s.params
    op := decodeOp s.params.implementedOps d.command
    bits := cmdBitsOf d.command
    fill := d.source.addr.extractLsb' 0 8
    src := fun k => (cursorAfter d.source.addr (stepOf d.source) k).toNat
    tgt := fun k => (cursorAfter d.target.addr (stepOf d.target) k).toNat } := by
  have hsrc : sideAddr (latchDescriptor d s) .src = fun k => (cursorAfter d.source.addr (stepOf d.source) k).toNat :=
    funext (sideAddr_of_latch rfl rfl)
  have htgt : sideAddr (latchDescriptor d s) .tgt = fun k => (cursorAfter d.target.addr (stepOf d.target) k).toNat :=
    funext (sideAddr_of_latch rfl rfl)
  rw [transferOf, hsrc, htgt, latchDescriptor_eq]
  rfl

/-- A transfer of 20-bit cursors uses reduced addresses (R29). -/
theorem transferOf_latchDescriptor_reduced : (transferOf (latchDescriptor d s)).Reduced := by
  rw [transferOf_latchDescriptor]
  exact fun k => ⟨wrapPhys_addr20 _ _, wrapPhys_addr20 _ _⟩

/-- The bytes of a latched descriptor that ran are its transfer's, from any state with the same bytes (R215). -/
theorem RanBytes.transferred {t u : State} {n : Nat} (h : RanBytes (latchDescriptor d s) n t) (hp : s.params = u.params)
    (hm : s.phys = u.phys) :
    Transferred (decodeOp u.params.implementedOps d.command) (cmdBitsOf d.command) (d.source.addr.extractLsb' 0 8) n
      (fun k => (cursorAfter d.source.addr (stepOf d.source) k).toNat)
      (fun k => (cursorAfter d.target.addr (stepOf d.target) k).toNat) u t := by
  obtain ⟨hparams, hphys⟩ := latchDescriptor_store d s
  have hbefore : physRead (latchDescriptor d s) = physRead u :=
    funext (physRead_congr (hparams.trans hp) (hphys.trans hm))
  have hred := transferOf_latchDescriptor_reduced (d := d) (s := s)
  have hbytes := h.bytes
  rw [hbefore] at hbytes
  rw [transferOf_latchDescriptor, hp] at hbytes hred
  exact Transfer.transferred hred rfl hbytes

end

/-- The first call after a trigger latches the descriptor at the list address (R182, R187). -/
theorem exec_dmaStep_triggered {s : State} {v : Byte} (hrun : s.halted = none) (hmax : 0 < s.params.dmaMaxIterations) :
    exec .dmaStep (triggered v s)
      = .next (latchDescriptor (descriptorAt (triggered v s)) ((triggered v s).setIter 1)) := by
  rw [exec_dmaStep_running (s := triggered v s) hrun]
  exact engineStep_fetch (s := triggered v s) rfl hmax rfl

/-- The descriptor at `lp` depends on the parameters, PhysicalStore and `lp` alone (R187). -/
theorem descriptorAt_congr {s t : State} (hp : s.params = t.params) (hm : s.phys = t.phys) (hlp : s.lp = t.lp) :
    descriptorAt s = descriptorAt t := by
  simp only [descriptorAt, hlp, physRead_congr hp hm]

/-- The fetch leaves BankConfig and the table alone (R187). -/
theorem latchDescriptor_bank (d : Desc11) (s : State) :
    (latchDescriptor d s).cfg = s.cfg ∧ (latchDescriptor d s).tt = s.tt := by
  rw [latchDescriptor_eq]
  exact ⟨rfl, rfl⟩

/-- The whole run of a descriptor between memory sides with no chain bit, by a drain within the ceiling (R182, R187 to
R189). -/
theorem exec_trigger_descriptor {s : State} {v : Byte} {d : Desc11} (hrun : s.halted = none)
    (hbase : s.params.variant = .base) (hpol : s.params.dmaPolicy = .drain) (hidle : s.busy = false)
    (hd : descriptorAt (triggered v s) = d)
    (hsrc : decodeOp s.params.implementedOps d.command ≠ .fill → d.source.io = false) (htgt : d.target.io = false)
    (hchain : (cmdBitsOf d.command).chain = false) (hallowed : 1 + countOf d.length ≤ s.params.dmaMaxIterations) :
    ∃ t, exec (.dmaRegWriteListLo v) s = .next t
      ∧ RanBytes (latchDescriptor d ((triggered v s).setIter 1)) (countOf d.length) t ∧ chainEnded t
      ∧ t.chainCont = false := by
  have hfirst := exec_dmaStep_triggered (v := v) hrun (by omega)
  rw [hd] at hfirst
  have hready := readyToRun_latchDescriptor (d := d) (s := (triggered v s).setIter 1) hrun rfl hallowed
  obtain ⟨t, hcalls, ht⟩ := engineCalls_ranBytes hready hsrc htgt (countOf d.length) (Nat.le_refl _)
  obtain ⟨hbusy, hcont, -⟩ := ht.ended rfl
  have htidle : t.busy = false := hbusy.trans hchain
  have htrun : t.halted = none := ht.halted.trans hready.running
  refine ⟨t, ?_, ht, ⟨htidle, htrun⟩, hcont.trans hchain⟩
  have hfuel : drainFuel (triggered v s) = countOf d.length + (s.params.dmaMaxIterations - countOf d.length) + 1 := by
    change s.params.dmaMaxIterations - 0 + 1 = _
    omega
  rw [exec_trigger_idle v hrun hbase hidle, runArmed_drain (s := triggered v s) hpol,
    drain_eq_engineCalls _ (triggered v s) hrun, hfuel, engineCalls_succ _ hfirst hready.running, engineCalls_add _ hready.running hcalls htrun,
    engineCalls_idle _ htrun htidle]

/-- Settles O28: the first call latches the descriptor, its bytes run within the ceiling, and the calls left of the drain
find the engine idle; the bytes are the transfer's. -/
theorem drainedTransferCompletes : Obligations.DrainedTransferCompletes := by
  unfold Obligations.DrainedTransferCompletes
  intro s v la d hrun hbase hpol hidle hla hd hsrc htgt hchain hallowed
  subst hla
  have hd : descriptorAt (triggered v s) = d := by
    rw [hd]
    exact descriptorAt_congr rfl rfl rfl
  obtain ⟨t, hexec, ht, hended, hcont⟩ := exec_trigger_descriptor hrun hbase hpol hidle hd hsrc htgt hchain
    hallowed
  have hlp : wrapPhys s.params ((triggered v s).lp + s.params.descLen) = ((triggered v s).lp + 11) % 2 ^ 20 := by
    rw [wrapPhys, physSize_base hbase, Params.descLen_eq, if_pos hbase]
  have hparams : (latchDescriptor d ((triggered v s).setIter 1)).params = s.params := (latchDescriptor_store d _).1
  obtain ⟨hcfg, htt⟩ := latchDescriptor_bank d ((triggered v s).setIter 1)
  have hfields := ht.frame
  rw [latchDescriptor_eq] at hfields
  refine ⟨t, hexec, hended, hcont, ?_, ?_, ?_, ?_, ?_, ?_, ?_, ?_, ?_, ?_, ?_, ?_, ?_, ?_, ?_,
    ht.transferred (u := s) rfl rfl⟩
  case refine_10 =>
    intro hnil
    rw [← hparams] at hnil
    exact ⟨(ht.cfg hnil).trans hcfg, (ht.tt hnil).trans htt⟩
  all_goals rw [hfields]
  case refine_1 => exact Nat.sub_self _
  case refine_2 => rfl
  case refine_3 => exact hlp
  all_goals rfl

end Sys2Proof.Machine
end

section
/-! PROOFS. The byte operations of the commands between memory sides: Mix's minterm function (R211), one Execute step
with every field it leaves (R210 to R214, R188), and the run of a whole descriptor (R215). -/

namespace Sys2Proof.Machine

/-! ### The minterm function -/

/-- Every bit of a minterm mask is its command bit (R108). -/
theorem getLsbD_mintermMask {i : Nat} (hi : i < 8) (b : Bool) : (mintermMask b).getLsbD i = b := by
  cases b with
  | false => exact BitVec.getLsbD_zero
  | true => exact (BitVec.getLsbD_allOnes (v := 8)).trans (decide_eq_true hi)

/-- A bit of Mix's result as the sum of the four minterms its mask bits select (R211). -/
theorem getLsbD_mixByte (c : CmdBits) (s d : Byte) {i : Nat} (hi : i < 8) :
    (mixByte c s d).getLsbD i =
      (s.getLsbD i && d.getLsbD i && c.mt3 || s.getLsbD i && !d.getLsbD i && c.mt2
        || !s.getLsbD i && d.getLsbD i && c.mt1 || !s.getLsbD i && !d.getLsbD i && c.mt0) := by
  simp only [mixByte, BitVec.getLsbD_or, BitVec.getLsbD_and, BitVec.getLsbD_not, getLsbD_mintermMask hi,
    decide_eq_true hi, Bool.true_and]

/-- Settles O37: at each bit exactly one minterm is selected, and the masks are the rule's. -/
theorem mixIsMintermFunction : Obligations.MixIsMintermFunction := by
  unfold Obligations.MixIsMintermFunction
  refine ⟨fun c s d i hi => ?_, fun c s d m0 m1 m2 m3 h0 h1 h2 h3 => ?_, by decide⟩
  · rw [getLsbD_mixByte c s d hi]
    cases s.getLsbD i <;> cases d.getLsbD i <;> simp
  · rw [h0, h1, h2, h3]
    rfl

/-! ### One Execute step between memory sides -/

/-- The ports and the log that the byte operation of a command between memory sides reaches, PhysicalStore aside: the port
bound to each byte it writes, if one is, in the order of the writes (R210 to R214, D12). -/
def reachedByByte (op : Op) (c : CmdBits) (s : State) : State :=
  match op with
  | .copy => reachPort (memBindingAt s.params (cursorAddr s .tgt)) (physRead s (cursorAddr s .src)) s
  | .mix => reachPort (memBindingAt s.params (cursorAddr s .tgt))
      (mixByte c (physRead s (cursorAddr s .src)) (physRead s (cursorAddr s .tgt))) s
  | .swap => reachPort (memBindingAt s.params (cursorAddr s .tgt)) (physRead s (cursorAddr s .src))
      (reachPort (memBindingAt s.params (cursorAddr s .src)) (physRead s (cursorAddr s .tgt)) s)
  | .fill => reachPort (memBindingAt s.params (cursorAddr s .tgt)) (s.cur.src.addr.extractLsb' 0 8) s
  | .unknown v => { s with log := .unknownDmaCommand v :: s.log }

/-- The write of a memory side changes PhysicalStore and the port bound there, if one is (R65, D12). -/
theorem sideWrites_mem_eq {s t : State} {n : SideName} {v : Byte} (hio : (sideOf s n).io = false)
    (h : sideWrites s n v t) : t = (reachPort (memBindingAt s.params (cursorAddr s n)) v s).setPhys t.phys := by
  obtain ⟨hio', -⟩ | ⟨-, m, -, rfl⟩ := h
  · simp [hio] at hio'
  · rw [reachPort_phys, setPhys_reachPort]
    rfl

/-- The accesses of a step between memory sides leave PhysicalStore and what `reachedByByte` says (R210 to R214). -/
theorem stepAccesses_mem_eq {op : Op} {c : CmdBits} {s t : State} (hsrc : op ≠ .fill → s.cur.src.io = false)
    (htgt : s.cur.tgt.io = false) (h : stepAccesses op c s t) : t = (reachedByByte op c s).setPhys t.phys := by
  cases op with
  | copy =>
    obtain ⟨v, u, hr, hw⟩ := h
    obtain ⟨rfl, rfl⟩ := sideReads_mem (n := .src) (hsrc nofun) hr
    exact sideWrites_mem_eq (n := .tgt) htgt hw
  | mix =>
    obtain ⟨v, w, u, x, hr, hq, hw⟩ := h
    obtain ⟨rfl, rfl⟩ := sideReads_mem (n := .src) (hsrc nofun) hr
    obtain ⟨rfl, rfl⟩ := sideReads_mem (n := .tgt) htgt hq
    exact sideWrites_mem_eq (n := .tgt) htgt hw
  | swap =>
    obtain ⟨v, w, u, x, y, hr, hq, hw, hz⟩ := h
    obtain ⟨rfl, rfl⟩ := sideReads_mem (n := .src) (hsrc nofun) hr
    obtain ⟨rfl, rfl⟩ := sideReads_mem (n := .tgt) htgt hq
    have f := sideWrites_frame hw
    have hlast := sideWrites_mem_eq (n := .tgt) ((congrArg SideLatch.io (f.sideOf .tgt)).trans htgt) hz
    rw [f.params, f.cursorAddr, sideWrites_mem_eq (n := .src) (hsrc nofun) hw, ← setPhys_reachPort] at hlast
    exact hlast
  | fill => exact sideWrites_mem_eq (n := .tgt) htgt h
  | unknown v =>
    subst h
    rfl

/-- One Execute step of a command between memory sides: its byte operation on the readable bytes, the ports it reaches,
and the tail (R188, R189, R210 to R214). FILL does not read its source side. -/
theorem exec_cmdInstr_mem {op : Op} {s : State} (c : CmdBits) (hrun : s.halted = none)
    (hsrc : op ≠ .fill → s.cur.src.io = false) (htgt : s.cur.tgt.io = false) (hleft : 1 ≤ s.remaining) :
    ∃ t m, exec (cmdInstr op c) s = .next t ∧ t = afterByte c.chain m (reachedByByte op c s)
      ∧ ∀ a, physRead t a = byteEffect s.params op c (s.cur.src.addr.extractLsb' 0 8) (cursorAddr s .src)
          (cursorAddr s .tgt) (physRead s) a := by
  have hnot : ∀ n, writesSide op n → ¬ hitsTrigger s n
    | .tgt, _, ⟨hio, _⟩ => by simp [sideOf, htgt] at hio
    | .src, hw, ⟨hio, _⟩ => by
      have hop : op ≠ .fill := fun hfill => by simp [hfill, writesSide] at hw
      simp [sideOf, hsrc hop] at hio
  obtain ⟨u, hacc, hbody⟩ := bodyOf_completes c hrun hnot
  obtain ⟨hbytes, -⟩ := stepAccesses_mem hsrc htgt hacc
  have hreached := stepAccesses_mem_eq hsrc htgt hacc
  have htail : afterByte c.chain u.phys u = afterByte c.chain u.phys (reachedByByte op c s) := calc
    _ = afterByte c.chain u.phys ((reachedByByte op c s).setPhys u.phys) := congrArg _ hreached
    _ = _ := rfl
  exact ⟨_, u.phys, exec_cmdInstr_afterByte hrun hleft hbody, htail, congrFun hbytes⟩

/-- Settles O35: a step between memory sides, of COPY. -/
theorem copyByteInMemory : Obligations.CopyByteInMemory := by
  unfold Obligations.CopyByteInMemory
  intro s c hrun hsrc htgt hleft
  exact exec_cmdInstr_mem (op := .copy) c hrun (fun _ => hsrc) htgt hleft

/-- Settles O36: a step between memory sides, of MIX. -/
theorem mixByteInMemory : Obligations.MixByteInMemory := by
  unfold Obligations.MixByteInMemory
  intro s c hrun hsrc htgt hleft
  exact exec_cmdInstr_mem (op := .mix) c hrun (fun _ => hsrc) htgt hleft

/-- Settles O38: a step between memory sides, of SWAP, whose second write is the one to the target. -/
theorem swapBytesInMemory : Obligations.SwapBytesInMemory := by
  unfold Obligations.SwapBytesInMemory
  intro s c hrun hsrc htgt hleft
  exact exec_cmdInstr_mem (op := .swap) c hrun (fun _ => hsrc) htgt hleft

/-- Settles O39: a step between memory sides, of FILL, which does not read its source side. -/
theorem fillByteInMemory : Obligations.FillByteInMemory := by
  unfold Obligations.FillByteInMemory
  intro s c hrun htgt hleft
  exact exec_cmdInstr_mem (op := .fill) c hrun (absurd rfl) htgt hleft

/-- Settles O40: the byte operation of UNKNOWN is its log event alone. -/
theorem unknownStepLogsOnly : Obligations.UnknownStepLogsOnly := by
  unfold Obligations.UnknownStepLogsOnly
  intro s v c hrun hleft
  exact exec_cmdInstr_afterByte (op := .unknown v) (u := s.pushLog (.unknownDmaCommand v)) hrun hleft rfl

/-! ### The run of a whole descriptor -/

/-- The addresses of a descriptor's byte operations are reduced (R65). -/
theorem transferOf_reduced (s : State) : (transferOf s).Reduced :=
  fun _ => ⟨wrapPhys_wrapPhys _ _, wrapPhys_wrapPhys _ _⟩

/-- All the bytes left of a descriptor whose command is implemented, as the fields its run leaves (R188, R189, R215). -/
theorem RanBytes.ranDescriptor {s t : State} (h : RanBytes s s.remaining t) (hrun : s.halted = none)
    (hop : ∀ v, currentOp s ≠ .unknown v) : RanDescriptor s t := by
  obtain ⟨hbusy, hcont, hphase⟩ := h.ended rfl
  have hfields := h.frame
  constructor
  case cfg => exact h.cfg
  case tt => exact h.tt
  case busy => exact hbusy
  case chainCont => exact hcont
  case phase => exact hphase
  case remaining => rw [h.remaining, Nat.sub_self]
  case halted => exact h.halted.trans hrun
  case log => exact h.log hop
  all_goals rw [hfields]

/-- The calls of the bytes left of a descriptor between memory sides complete it and make its transfer (R185, R188,
R215). -/
theorem engineCalls_transferred {s : State} {op : Op} (hready : ReadyToRun s op) (hop : ∀ v, op ≠ .unknown v)
    (hsrc : op ≠ .fill → s.cur.src.io = false) (htgt : s.cur.tgt.io = false) :
    ∃ t, engineCalls s.remaining s = .next t ∧ RanDescriptor s t
      ∧ Transferred op (cmdBitsOf s.cur.command) (s.cur.src.addr.extractLsb' 0 8) s.remaining (sideAddr s .src)
          (sideAddr s .tgt) s t := by
  obtain rfl : currentOp s = op := hready.command
  obtain ⟨t, hcalls, ht⟩ := engineCalls_ranBytes hready hsrc htgt s.remaining (Nat.le_refl _)
  exact ⟨t, hcalls, ht.ranDescriptor hready.running hop, Transfer.transferred (transferOf_reduced s) rfl ht.bytes⟩

/-- A transfer of a command that writes its target side alone changes writable target bytes only (R62, R215). -/
theorem Transferred.others_of_target {op : Op} {c : CmdBits} {fill : Byte} {n : Nat} {A B : Nat → Nat} {s t : State}
    (h : Transferred op c fill n A B s t) (hop : ¬ writesSide op .src) (a : Nat)
    (ha : ∀ k, k < n → B k = wrapPhys s.params a → writableAt s.params (B k) = false) : physRead t a = physRead s a :=
  h.others a fun k hk => ⟨fun _ => ha k hk, fun hw => absurd hw hop⟩

/-- Settles O45: the run of a descriptor, of FILL. -/
theorem fillRun : Obligations.FillRun := by
  unfold Obligations.FillRun
  intro s hready htgt
  obtain ⟨t, hcalls, hran, h⟩ := engineCalls_transferred hready nofun (absurd rfl) htgt
  exact ⟨t, hcalls, hran, h.filled rfl, h.others_of_target nofun⟩

/-- Settles O46: the run of a descriptor, of COPY. -/
theorem copyRun : Obligations.CopyRun := by
  unfold Obligations.CopyRun
  intro s hready hsrc htgt hdisj
  obtain ⟨t, hcalls, hran, h⟩ := engineCalls_transferred hready nofun (fun _ => hsrc) htgt
  exact ⟨t, hcalls, hran, h.copied rfl hdisj, h.others_of_target nofun⟩

/-- Settles O47: the run of a descriptor, of MIX. -/
theorem mixRun : Obligations.MixRun := by
  unfold Obligations.MixRun
  intro s hready hsrc htgt hdisj hdistinct
  obtain ⟨t, hcalls, hran, h⟩ := engineCalls_transferred hready nofun (fun _ => hsrc) htgt
  exact ⟨t, hcalls, hran, h.mixed rfl hdisj hdistinct, h.others_of_target nofun⟩

/-- Settles O48: the run of a descriptor, of SWAP, which writes both sides. -/
theorem swapRun : Obligations.SwapRun := by
  unfold Obligations.SwapRun
  intro s hready hsrc htgt hdisj htgts hsrcs
  obtain ⟨t, hcalls, hran, h⟩ := engineCalls_transferred hready nofun (fun _ => hsrc) htgt
  refine ⟨t, hcalls, hran, h.swapped rfl hdisj htgts hsrcs, fun a ha => h.others a fun k hk => ?_⟩
  obtain ⟨ht, hs⟩ := ha k hk
  exact ⟨fun _ => ht, fun _ => hs⟩

end Sys2Proof.Machine
end

section
/-! PROOFS. The fatal condition F1 and where it can come from (R241, R152), and the halted state it leaves (R249). -/

namespace Sys2Proof.Machine

/-! ### F1 -/

/-- A CPU read through an I/O entry outside region $D raises F1 at its address (R152, R241). -/
theorem exec_cpuRead_inconsistent {s : State} {addr : CpuAddr} (hrun : s.halted = none) (hD : regionOf addr ≠ 13)
    (hio : (s.tt.get (regionOf addr)).io = true) :
    exec (.cpuRead addr) s = .next (s.setHalted (some (.configInconsistency addr))) := by
  rw [exec_cpuRead, whenRunning_running _ hrun]
  simp only [memRead, translate_of_inconsistent s.tt addr .read hio hD, raiseFatal_eq]

/-- A CPU write through an I/O entry outside region $D raises F1 at its address (R152, R241). -/
theorem exec_cpuWrite_inconsistent {s : State} {addr : CpuAddr} (v : Byte) (hrun : s.halted = none)
    (hD : regionOf addr ≠ 13) (hio : (s.tt.get (regionOf addr)).io = true) :
    exec (.cpuWrite addr v) s = .next (s.setHalted (some (.configInconsistency addr))) := by
  rw [exec_cpuWrite, whenRunning_running _ hrun]
  simp only [memWrite, translate_of_inconsistent s.tt addr .write hio hD, raiseFatal_eq]

/-- No access through a rebuilt table finds the inconsistency: its only I/O entry is that of region $D (R142, R152). -/
theorem translate_recompute_consistent (p : Params) (c : BankConfig) (addr a : CpuAddr) (i : Intent) :
    translate (recompute p c) addr i ≠ .inconsistent a := by
  obtain ⟨-, h⟩ | ⟨-, -, h⟩ | ⟨hio, hD, -⟩ := translate_cases (recompute p c) addr i
  · simp [h]
  · simp [h]
  · obtain ⟨hregion, -⟩ := (onlyRegionDIsIo p c (regionOf addr)).mp hio
    exact absurd hregion hD

/-- Settles O20: the two accesses through an inconsistent entry, a fetch being a read, and the tables `recompute` builds. -/
theorem inconsistentEntryIsFatal : Obligations.InconsistentEntryIsFatal := by
  unfold Obligations.InconsistentEntryIsFatal
  refine ⟨fun s addr v hrun hD hio => ?_, translate_recompute_consistent⟩
  have hread := exec_cpuRead_inconsistent hrun hD hio
  exact ⟨hread, (cpuFetchIsCpuRead s addr).trans hread, exec_cpuWrite_inconsistent v hrun hD hio⟩

/-! ### The halted state -/

/-- In the halted state every operation but Reset stops with the cause (R249). -/
theorem exec_halted {s : State} {f : Fatal} {i : Instr} (h : s.halted = some f) (hi : i ≠ .reset) :
    exec i s = .fault (.halted f) := by
  obtain ⟨k, hk⟩ := exec_whenRunning i hi
  rw [hk, whenRunning_halted k h]

/-- The engine has no turn in the halted state (R249). -/
theorem engineTurn_halted {s : State} {f : Fatal} (h : s.halted = some f) : engineTurn s = false := by
  simp [engineTurn, h]

/-- In the halted state a turn with nothing waiting stops with the cause (R249). -/
theorem step_halted_empty {s : State} {f : Fatal} (h : s.halted = some f) (hin : s.inputs = []) :
    step s = .fault (.halted f) := by
  simp [step, loopTurn, engineTurn_halted h, hin, h]

/-- In the halted state the driving loop stops with the cause unless a Reset is the next waiting operation (R249). -/
theorem step_halted {s : State} {f : Fatal} (h : s.halted = some f) (hnext : s.inputs.head? ≠ some .reset) :
    step s = .fault (.halted f) := by
  cases hin : s.inputs with
  | nil => exact step_halted_empty h hin
  | cons i rest =>
    have hi : i ≠ .reset := by simpa [hin] using hnext
    rw [step_input (engineTurn_halted h) hin]
    exact exec_halted (by simpa using h) hi

/-- Settles O21: the operations, the driving loop, and Reset, which clears the latch. -/
theorem haltedIsTerminal : Obligations.HaltedIsTerminal := by
  unfold Obligations.HaltedIsTerminal
  intro s f h
  exact ⟨fun i hi => exec_halted h hi, step_halted h, resetOp s, exec_reset s, resetOp_halted s⟩

end Sys2Proof.Machine
end

section
/-! PROOFS. The operation Reset, which runs in every state, halted or not (R270). -/

namespace Sys2Proof.Machine

/-! ### Reset -/

section
variable (s : State)
@[simp] theorem resetOp_dreg0 : (resetOp s).dreg0 = 0 := rfl
@[simp] theorem resetOp_dreg1 : (resetOp s).dreg1 = 0 := rfl
@[simp] theorem resetOp_dreg2 : (resetOp s).dreg2 = 0 := rfl
end

/-- BankConfig after reset, written out (R41). -/
theorem resetBank_eq : resetBank = ⟨0, 0, 0, 0, 0, 0, 0, 0⟩ := rfl

/-- Settles O22: the mapping side, the engine side and the fields Reset keeps, each by the rule of its field. -/
theorem resetEffect : Obligations.ResetEffect := by
  unfold Obligations.ResetEffect
  intro s
  have hcfg : (resetOp s).cfg = ⟨0, 0, 0, 0, 0, 0, 0, 0⟩ := (resetOp_cfg s).trans resetBank_eq
  have htable : (resetOp s).tt = recompute s.params (resetOp s).cfg := by rw [resetOp_tt, resetOp_cfg]
  refine ⟨resetOp s, exec_reset s, hcfg, htable, ?_⟩
  simp only [resetOp_dreg0, resetOp_dreg1, resetOp_dreg2, resetOp_busy, resetOp_chainCont, resetOp_iterCount,
    resetOp_halted, resetOp_phys, resetOp_params, resetOp_log, resetOp_ioTrace, resetOp_result, resetOp_inputs,
    resetOp_credit, and_self]

end Sys2Proof.Machine
end
